-- ==== Sys2Proof/Word.lean ====
section
/-! DEFINITION. The units of data the block moves: bytes, 64-bit words, byte sequences
(rules R8, R61, R231 of spec/). -/

namespace Sys2Proof

/-- A byte: an integer 0..255, bit 0 least significant (R8). -/
abbrev Byte := BitVec 8

/-- A 64-bit word of the command port, of the response port or of a status register
(R30, R61, R93). -/
abbrev Word64 := BitVec 64

/-- A 16-bit `group_id` or `symbol_id` (R6, R96). -/
abbrev Id16 := BitVec 16

/-- A byte sequence, byte 0 first (R8, R67). -/
abbrev Bytes := List Byte

/-- `zeros(n)`: n bytes of value 0 (R8). -/
def zeros (n : Nat) : Bytes := List.replicate n 0#8

/-- `a xor b` of two chunks: each byte position on its own, no carry between them (R231). -/
def xorBytes (a b : Bytes) : Bytes := List.zipWith (· ^^^ ·) a b

end Sys2Proof
end

