-- ==== Sys2Proof/Config.lean ====
section
/-! DEFINITION. The configuration straps of one session (R6, R21, R303), the constants the spec fixes,
and the answers of the collaborators that the spec leaves free (R79). -/

namespace Sys2Proof

/-- `CODEC_KIND`: 0 = reed_solomon_codec, 1 = bch_codec (R6). -/
inductive CodecKind where
  | rs
  | bch
deriving DecidableEq, Repr

/-- `FLUSH_POLICY`: 0 = STRICT_IN_ORDER, 1 reserved, which makes the configuration invalid (R6, R32). -/
inductive FlushPolicy where
  | strictInOrder
  | reserved
deriving DecidableEq, Repr

/-- The configuration straps, in the widths in which reset samples them into `CFG` (R21, R303). -/
structure Cfg where
  /-- `B`, `BUFFER_SIZE`: bytes in one codeword. -/
  b : BitVec 8
  /-- `P`, `PARITY`: bytes of the parity region. -/
  p : BitVec 8
  /-- `CODEC_KIND`. -/
  codecKind : CodecKind
  /-- `FLUSH_POLICY`. -/
  flushPolicy : FlushPolicy
  /-- `C`, `CHUNK_SIZE`: bytes in one chunk. -/
  c : BitVec 16
  /-- `K`: source chunks per redundancy group. -/
  k : BitVec 16
  /-- `G_MAX`: most entries of the group table. -/
  gMax : BitVec 17
  /-- `S_MAX`: most symbols stored for one group. -/
  sMax : BitVec 17
deriving DecidableEq, Repr

/-- `B` as an integer (R6). -/
def Cfg.bufferSize (cfg : Cfg) : Nat := cfg.b.toNat

/-- `P` as an integer (R6). -/
def Cfg.parity (cfg : Cfg) : Nat := cfg.p.toNat

/-- `D = B - P`, derived (R6). -/
def Cfg.payloadSize (cfg : Cfg) : Nat := cfg.bufferSize - cfg.parity

/-- `C` as an integer (R6). -/
def Cfg.chunkSize (cfg : Cfg) : Nat := cfg.c.toNat

/-- `K` as an integer (R6). -/
def Cfg.sourceChunks (cfg : Cfg) : Nat := cfg.k.toNat

/-- `GS = K · C`, derived (R6, R201). -/
def Cfg.groupSize (cfg : Cfg) : Nat := cfg.sourceChunks * cfg.chunkSize

/-- `G_MAX` as an integer (R6). -/
def Cfg.maxGroups (cfg : Cfg) : Nat := cfg.gMax.toNat

/-- `S_MAX` as an integer (R6). -/
def Cfg.maxSymbols (cfg : Cfg) : Nat := cfg.sMax.toNat

/-- What the byte source answers to one `SrcRead(n)` (R62): either it has bytes, of which the block
gets the first n, or it reports its end with a count from -32768 to 0 (the number held here is the
count without its sign). No answer outside the ranges of R62 can be written (log 5). -/
inductive SrcAnswer where
  /-- The bytes the source holds ready. -/
  | bytes (l : Bytes)
  /-- The source is exhausted: the count is minus this number. -/
  | ended (k : Fin 32769)
deriving DecidableEq, Repr, Inhabited

/-- `XFER_MAX`: most data bytes in one command transfer (R6, R61). -/
def Config.xferMax : Nat := 65535

/-- The straps that `State.reset` samples. DESIGN CHOICE (log 1), unsafe: the spec leaves every
parameter open; these are the values its own vectors use unless a vector says otherwise
(95_test_vectors.md). Statements quantify over all configurations. -/
def Config.straps : Cfg where
  b := 15#8
  p := 4#8
  codecKind := .rs
  flushPolicy := .strictInOrder
  c := 4#16
  k := 2#16
  gMax := 65536#17
  sMax := 65536#17

/-- FREE VALUE (log 4), safe: the source's answer to the primitive call of this number, where the
scripted answers of the state have run out (R62, R79). -/
opaque Config.freeSrcAnswer : Nat → SrcAnswer

/-- FREE VALUE (log 4), safe: the bit `SrcOk()` returns at the primitive call of this number (R64, R79). -/
opaque Config.freeSrcOk : Nat → Bool

/-- FREE VALUE (log 4), safe: the bit `SinkOk()` returns at the primitive call of this number (R64, R79). -/
opaque Config.freeSinkOk : Nat → Bool

/-- FREE VALUE (log 4), safe: the fault bit `DcpPush` returns at the primitive call of this number
(R65, R79). -/
opaque Config.freeDcpFault : Nat → Bool

end Sys2Proof
end

