-- ==== Sys2Proof/Machine/GaloisField.lean ====
section
/-! DEFINITION. Arithmetic of GF(2^m) and of polynomials over it (R12, R121, R122, R140). One text for
both fields: a field is its width and the low bits of its defining polynomial. -/

namespace Sys2Proof.Machine

/-- GF(2^m): `red` holds the defining polynomial without its term z^m, bit i the coefficient of z^i
(R12). -/
structure GF (m : Nat) where
  red : BitVec m
deriving DecidableEq, Repr

/-- GF(2^8) with z^8 + z^7 + z^2 + z + 1, written 0x187 (R121). -/
def gf256 : GF 8 := ⟨0x87#8⟩

/-- GF(2^11) with z^11 + z^2 + 1, written 0x805 (R140). -/
def gf2048 : GF 11 := ⟨0x005#11⟩

variable {m : Nat}

/-- `xtime`: multiplication by z (R121). -/
def GF.xtime (F : GF m) (a : BitVec m) : BitVec m :=
  if a.msb then (a <<< 1) ^^^ F.red else a <<< 1

/-- The sum, over the low k bits of `b` that are 1, of `a` times z to that bit's number (R121). -/
def GF.mulLow (F : GF m) (a b : BitVec m) : Nat → BitVec m
  | 0 => 0#m
  | k + 1 => (if b.getLsbD 0 then a else 0#m) ^^^ F.mulLow (F.xtime a) (b >>> 1) k

/-- The product of two field elements (R121, R140). -/
def GF.mul (F : GF m) (a b : BitVec m) : BitVec m := F.mulLow a b m

/-- `α`, `β`: the element 2 (R12). -/
def GF.gen : BitVec m := BitVec.ofNat m 2

/-- The n-th power. -/
def GF.pow (F : GF m) (a : BitVec m) : Nat → BitVec m
  | 0 => BitVec.ofNat m 1
  | n + 1 => F.mul a (F.pow a n)

/-- `γ^n` for the element γ = 2 (R12): multiplication by γ is `xtime`. -/
def GF.genPow (F : GF m) : Nat → BitVec m
  | 0 => BitVec.ofNat m 1
  | n + 1 => F.xtime (F.genPow n)

/-- The product of the k squares of squares a^2, a^4, .., a^(2^k). -/
def GF.prodSquares (F : GF m) (a : BitVec m) : Nat → BitVec m
  | 0 => BitVec.ofNat m 1
  | k + 1 => F.mul (F.mul a a) (F.prodSquares (F.mul a a) k)

/-- `a^-1 = a^(2^m - 2)` for a ≠ 0 (R121): 2^m - 2 = 2 + 4 + .. + 2^(m-1). -/
def GF.inv (F : GF m) (a : BitVec m) : BitVec m := F.prodSquares a (m - 1)

/-- `a / b`, for b ≠ 0 (R121). -/
def GF.div (F : GF m) (a b : BitVec m) : BitVec m := F.mul a (F.inv b)

/-- x, x·g, x·g^2, .. (n members). -/
def GF.powersFrom (F : GF m) (g : BitVec m) : BitVec m → Nat → List (BitVec m)
  | _, 0 => []
  | x, n + 1 => x :: F.powersFrom g (F.mul x g) n

/-- Coefficients multiplied by a field element. -/
def GF.scale (F : GF m) (c : BitVec m) (p : List (BitVec m)) : List (BitVec m) := p.map (F.mul c)

/-- The sum of two polynomials, index = power of x. -/
def polyAdd : List (BitVec m) → List (BitVec m) → List (BitVec m)
  | a :: as, b :: bs => (a ^^^ b) :: polyAdd as bs
  | [], bs => bs
  | as, [] => as

/-- x^k times a polynomial, index = power of x. -/
def polyShift (k : Nat) (p : List (BitVec m)) : List (BitVec m) := List.replicate k 0#m ++ p

/-- The product of two polynomials, index = power of x. -/
def GF.polyMul (F : GF m) : List (BitVec m) → List (BitVec m) → List (BitVec m)
  | [], _ => []
  | a :: as, q => polyAdd (F.scale a q) (0#m :: F.polyMul as q)

/-- The value of a polynomial at x, index = power of x. -/
def GF.polyEval (F : GF m) (p : List (BitVec m)) (x : BitVec m) : BitVec m :=
  p.foldr (fun c acc => c ^^^ F.mul x acc) 0#m

/-- The value at x of a word read as a polynomial, its first symbol the coefficient of the highest power
(R69, R125, R145). -/
def GF.wordEval (F : GF m) (w : List (BitVec m)) (x : BitVec m) : BitVec m :=
  w.foldl (fun acc c => F.mul acc x ^^^ c) 0#m

/-- The degree of a polynomial, index = power of x; 0 for a constant and for the zero polynomial. -/
def polyDegree (p : List (BitVec m)) : Nat := (p.reverse.dropWhile (· == 0#m)).length - 1

/-- The formal derivative in characteristic 2, index = power of x: Λ'(x) = Σ_(i odd) Λ_i x^(i-1) (R134). -/
def polyDerivative : List (BitVec m) → List (BitVec m)
  | _ :: a :: rest => a :: 0#m :: polyDerivative rest
  | _ => []

/-- Σ a_i · b_i over the common length. -/
def GF.dot (F : GF m) (a b : List (BitVec m)) : BitVec m :=
  (List.zipWith F.mul a b).foldr (· ^^^ ·) 0#m

/-- A monic polynomial, highest power first, times x - a. -/
def GF.mulByRoot (F : GF m) (g : List (BitVec m)) (a : BitVec m) : List (BitVec m) :=
  polyAdd (g ++ [0#m]) (0#m :: F.scale a g)

/-- The monic polynomial with these roots, highest power first (R123, R142). -/
def GF.fromRoots (F : GF m) (roots : List (BitVec m)) : List (BitVec m) :=
  roots.foldl F.mulByRoot [BitVec.ofNat m 1]

/-- Long division, k steps: each step takes the leading coefficient c away and adds c times the tail of
the monic divisor to what follows. Highest power first. -/
def GF.divSteps (F : GF m) (divisorTail : List (BitVec m)) : Nat → List (BitVec m) → List (BitVec m)
  | k + 1, c :: rest => F.divSteps divisorTail k (polyAdd (F.scale c divisorTail) rest)
  | _, r => r

/-- `(M(x) · x^r) mod g(x)` as exactly r = deg g coefficients, all highest power first (R126, R144). -/
def GF.remainder (F : GF m) (gen msg : List (BitVec m)) : List (BitVec m) :=
  F.divSteps gen.tail msg.length (msg ++ List.replicate gen.tail.length 0#m)

/-- The systematic codeword: the message, then the remainder (R126, R144). -/
def GF.encodeSystematic (F : GF m) (gen msg : List (BitVec m)) : List (BitVec m) :=
  msg ++ F.remainder gen msg

end Sys2Proof.Machine
end

