-- ==== Sys2Proof/Machine/BlockDecoder.lean ====
section
/-! DEFINITION. The decoding algorithm of both codec kinds: syndromes, Berlekamp-Massey, Chien search,
Forney, verification (R131 to R135). R128 defines `decode` without an algorithm; that this one computes
it is a statement for the provers. -/

namespace Sys2Proof.Machine

/-- A code of words of `n` symbols in a field F with primitive element γ = `GF.gen`: the words W with
W(γ^j) = 0 for j = 1..`roots`; `t` is its bound, `binary` says that the symbols are bits (0 and 1 of F). -/
structure BlockCode (m : Nat) where
  field : GF m
  n : Nat
  roots : Nat
  t : Nat
  binary : Bool
deriving DecidableEq, Repr

variable {m : Nat}

/-- S_1, .., S_N: the values of the received word at γ^1, .., γ^N (R131). -/
def BlockCode.syndromes (code : BlockCode m) (r : List (BitVec m)) : List (BitVec m) :=
  (code.field.powersFrom GF.gen GF.gen code.roots).map (code.field.wordEval r)

/-- Whether every syndrome is 0. -/
def allZero (s : List (BitVec m)) : Bool := s.all (· == 0#m)

/-- The state of the Berlekamp-Massey iteration (R132): Λ, Bp (index = power of x), L, m, b, and the
syndromes already taken, latest first, whose number is n'. -/
structure BerlekampMassey (m : Nat) where
  lam : List (BitVec m)
  prev : List (BitVec m)
  len : Nat
  gap : Nat
  b : BitVec m
  past : List (BitVec m)
deriving DecidableEq, Repr

/-- Λ = 1, Bp = 1, L = 0, m = 1, b = 1 (R132). -/
def bmStart : BerlekampMassey m where
  lam := [BitVec.ofNat m 1]
  prev := [BitVec.ofNat m 1]
  len := 0
  gap := 1
  b := BitVec.ofNat m 1
  past := []

/-- d = S_(n'+1) + Σ_(i=1..L) Λ_i · S_(n'+1-i) (R132). -/
def bmDiscrepancy (F : GF m) (st : BerlekampMassey m) (s : BitVec m) : BitVec m :=
  s ^^^ F.dot (st.lam.tail.take st.len) st.past

/-- Λ - (d / b) · x^m · Bp (R132). -/
def bmUpdated (F : GF m) (st : BerlekampMassey m) (d : BitVec m) : List (BitVec m) :=
  polyAdd st.lam (polyShift st.gap (F.scale (F.div d st.b) st.prev))

/-- One turn of the iteration, with the syndrome S_(n'+1) (R132). -/
def bmStep (F : GF m) (st : BerlekampMassey m) (s : BitVec m) : BerlekampMassey m :=
  if bmDiscrepancy F st s = 0#m then
    { st with gap := st.gap + 1, past := s :: st.past }
  else if 2 * st.len ≤ st.past.length then
    { lam := bmUpdated F st (bmDiscrepancy F st s)
      prev := st.lam
      len := st.past.length + 1 - st.len
      gap := 1
      b := bmDiscrepancy F st s
      past := s :: st.past }
  else
    { st with
      lam := bmUpdated F st (bmDiscrepancy F st s)
      gap := st.gap + 1
      past := s :: st.past }

/-- The iteration over S_1, .., S_2t (R132). -/
def berlekampMassey (F : GF m) (syndromes : List (BitVec m)) : BerlekampMassey m :=
  syndromes.foldl (bmStep F) bmStart

/-- The inverse locators X^-1 = γ^-(n-1-i) of the positions i = 0, .., n-1 (R133). -/
def BlockCode.inverseLocators (code : BlockCode m) : List (BitVec m) :=
  (code.field.powersFrom (code.field.inv GF.gen) (BitVec.ofNat m 1) code.n).reverse

/-- Whether a position with this inverse locator is an error position (R133). -/
def isErrorPosition (F : GF m) (lam : List (BitVec m)) (xinv : BitVec m) : Bool :=
  F.polyEval lam xinv == 0#m

/-- Ω(x) = (S(x) · Λ(x)) mod x^(2t) (R134). -/
def errorEvaluator (F : GF m) (syndromes lam : List (BitVec m)) : List (BitVec m) :=
  (F.polyMul syndromes lam).take syndromes.length

/-- The error value v = Ω(X^-1) / Λ'(X^-1), none where the algorithm fails (R134). -/
def errorValue (code : BlockCode m) (lam omega : List (BitVec m)) (xinv : BitVec m) :
    Option (BitVec m) :=
  let den := code.field.polyEval (polyDerivative lam) xinv
  let v := code.field.div (code.field.polyEval omega xinv) den
  if den = 0#m then none
  else if v = 0#m then none
  else if code.binary && v != BitVec.ofNat m 1 then none
  else some v

/-- The word with r[i] replaced by r[i] xor v_i at every error position (R134); the second list holds
the inverse locators of the positions. -/
def correctPositions (code : BlockCode m) (lam omega : List (BitVec m)) :
    List (BitVec m) → List (BitVec m) → Option (List (BitVec m))
  | r :: rs, x :: xs =>
    match correctPositions code lam omega rs xs with
    | none => none
    | some done =>
      if isErrorPosition code.field lam x then
        match errorValue code lam omega x with
        | none => none
        | some v => some ((r ^^^ v) :: done)
      else some (r :: done)
  | _, _ => some []

/-- Steps 2 to 5, for a word that is no codeword (R132 to R135). -/
def BlockCode.correct (code : BlockCode m) (r : List (BitVec m)) : Option (List (BitVec m)) :=
  let synd := (code.syndromes r).take (2 * code.t)
  let bm := berlekampMassey code.field synd
  if polyDegree bm.lam ≠ bm.len ∨ code.t < bm.len then none
  else if (code.inverseLocators.countP (isErrorPosition code.field bm.lam)) ≠ bm.len then none
  else
    match correctPositions code bm.lam (errorEvaluator code.field synd bm.lam) r code.inverseLocators with
    | none => none
    | some fixed => if allZero (code.syndromes fixed) then some fixed else none

/-- The corrected word, or none for failure (R131 to R135). -/
def BlockCode.decodeWord (code : BlockCode m) (r : List (BitVec m)) : Option (List (BitVec m)) :=
  if allZero (code.syndromes r) then some r
  else if code.t = 0 then none
  else code.correct r

end Sys2Proof.Machine
end

