-- ==== Sys2Proof/Machine/CodewordCodec.lean ====
section
/-! DEFINITION. The Codeword Codec: reed_solomon_codec, bch_codec and the pair of functions `encode`,
`decode` (R120 to R145). -/

namespace Sys2Proof.Machine

/-- m = `p ‖ zeros(D - len(p))` (R124, R126). -/
def padPayload (d : Nat) (p : Bytes) : Bytes := p ++ zeros (d - p.length)

/-- g(x) = (x - α^1) .. (x - α^P), highest power first (R123). -/
def rsGenerator (parity : Nat) : List (BitVec 8) :=
  gf256.fromRoots (gf256.powersFrom GF.gen GF.gen parity)

/-- RS(B, P) with its bound t = P div 2 (R125, R127). -/
def rsCode (b parity : Nat) : BlockCode 8 where
  field := gf256
  n := b
  roots := parity
  t := parity / 2
  binary := false

/-- RS `encode` for P > 0 (R126). -/
def rsEncode (b parity : Nat) (p : Bytes) : Bytes :=
  gf256.encodeSystematic (rsGenerator parity) (padPayload (b - parity) p)

/-- RS `decode` for P > 0 (R128, R131 to R135): the payload region of the corrected word. -/
def rsDecode (b parity : Nat) (w : Bytes) : Option Bytes :=
  ((rsCode b parity).decodeWord w).map (List.take (b - parity))

/-- The bits of a byte, most significant first (R141). -/
def byteBits (x : Byte) : List Bool :=
  [x.getLsbD 7, x.getLsbD 6, x.getLsbD 5, x.getLsbD 4,
   x.getLsbD 3, x.getLsbD 2, x.getLsbD 1, x.getLsbD 0]

/-- `bits(u)` (R141). -/
def bitsOf (u : Bytes) : List Bool := u.flatMap byteBits

/-- The byte with these bits, most significant first (R141). -/
def byteOfBits (b7 b6 b5 b4 b3 b2 b1 b0 : Bool) : Byte :=
  BitVec.ofBool b7 ++ BitVec.ofBool b6 ++ BitVec.ofBool b5 ++ BitVec.ofBool b4
    ++ BitVec.ofBool b3 ++ BitVec.ofBool b2 ++ BitVec.ofBool b1 ++ BitVec.ofBool b0

/-- `bytes(v)`, for bit sequences whose length is a multiple of 8 (R141). -/
def bytesOf : List Bool → Bytes
  | b7 :: b6 :: b5 :: b4 :: b3 :: b2 :: b1 :: b0 :: rest =>
    byteOfBits b7 b6 b5 b4 b3 b2 b1 b0 :: bytesOf rest
  | _ => []

/-- A bit as the element 0 or 1 of GF(2^11) (R140). -/
def bitSymbol (b : Bool) : BitVec 11 := if b then 1#11 else 0#11

/-- The bit that a symbol stands for (R140). -/
def symbolBit (x : BitVec 11) : Bool := x.getLsbD 0

/-- i, 2i, 4i, .. mod 2047 (n members). -/
def doublings (i : Nat) : Nat → List Nat
  | 0 => []
  | n + 1 => i :: doublings (i * 2 % 2047) n

/-- The distinct e in { i · 2^u mod 2047 : u ≥ 0 } (R142); doubling returns to i after at most 11 steps,
because 2^11 = 1 mod 2047. -/
def cyclotomicCoset (i : Nat) : List Nat := (doublings (i % 2047) 11).dedup

/-- M_i(x) = Π (x - β^e) over the coset of i, highest power first (R142). -/
def minimalPolynomial (i : Nat) : List (BitVec 11) :=
  gf2048.fromRoots ((cyclotomicCoset i).map (gf2048.genPow))

/-- Whether M_i is among the minimal polynomials of these exponents: i lies in the coset of one. -/
def cosetListed (exponents : List Nat) (i : Nat) : Bool :=
  exponents.any fun e => (cyclotomicCoset e).contains i

/-- Exponents whose minimal polynomials are the distinct ones among those listed and M_i. -/
def addExponent (exponents : List Nat) (i : Nat) : List Nat :=
  if cosetListed exponents i then exponents else exponents ++ [i]

/-- The degree of the product of the minimal polynomials of these exponents (R142). -/
def degreeOfExponents (exponents : List Nat) : Nat :=
  (exponents.map fun e => (cyclotomicCoset e).length).sum

/-- The search for the largest t with deg g_t ≤ 8P, from t and the exponents e whose M_e are the distinct
polynomials among M_1, .., M_2t (R142). The degree never
falls as t grows, so the search stops at the first t whose successor does not fit. -/
def searchBound (parity : Nat) : Nat → Nat → List Nat → Nat × List Nat
  | 0, t, es => (t, es)
  | fuel + 1, t, es =>
    let es' := addExponent (addExponent es (2 * t + 1)) (2 * t + 2)
    if degreeOfExponents es' ≤ 8 * parity then searchBound parity fuel (t + 1) es' else (t, es)

/-- The BCH bound t for parity P and the exponents of g_t (R142). There are 1023 steps to t = 1023, where
every exponent 1..2046 is listed and the degree is 2046 > 8 · 254. -/
def bchBoundExponents (parity : Nat) : Nat × List Nat := searchBound parity 1023 0 []

/-- The BCH bound t (R142). -/
def bchBound (parity : Nat) : Nat := (bchBoundExponents parity).1

/-- r_g = deg g_t: the parity bits used (R142). -/
def bchParityBits (parity : Nat) : Nat := degreeOfExponents (bchBoundExponents parity).2

/-- g_t(x), highest power first: the product of the distinct minimal polynomials (R142). -/
def bchGenerator (parity : Nat) : List (BitVec 11) :=
  gf2048.fromRoots
    (((bchBoundExponents parity).2.flatMap cyclotomicCoset).map (gf2048.genPow))

/-- BCH(B, P): n_c = 8D + r_g bits, roots β^1..β^2t (R143, R145). -/
def bchCode (b parity : Nat) : BlockCode 11 where
  field := gf2048
  n := 8 * (b - parity) + bchParityBits parity
  roots := 2 * bchBound parity
  t := bchBound parity
  binary := true

/-- BCH `encode` for P > 0 (R143, R144): payload bits, parity bits, pad bits 0. -/
def bchEncode (b parity : Nat) (p : Bytes) : Bytes :=
  bytesOf
    ((gf2048.encodeSystematic (bchGenerator parity)
        ((bitsOf (padPayload (b - parity) p)).map bitSymbol)).map symbolBit
      ++ List.replicate (8 * parity - bchParityBits parity) false)

/-- BCH `decode` for P > 0 (R143, R145): the pad bits are ignored. -/
def bchDecode (b parity : Nat) (w : Bytes) : Option Bytes :=
  ((bchCode b parity).decodeWord
      (((bitsOf w).take (8 * (b - parity) + bchParityBits parity)).map bitSymbol)).map
    fun c => bytesOf ((c.take (8 * (b - parity))).map symbolBit)

/-- `encode` (R120): pass-through where P = 0 (R136), else the configured kind. -/
def codecEncode (cfg : Cfg) (p : Bytes) : Bytes :=
  if cfg.parity = 0 then p
  else
    match cfg.codecKind with
    | .rs => rsEncode cfg.bufferSize cfg.parity p
    | .bch => bchEncode cfg.bufferSize cfg.parity p

/-- `decode` (R120): the payload where ok = 1, none where ok = 0; pass-through where P = 0 (R136). -/
def codecDecode (cfg : Cfg) (w : Bytes) : Option Bytes :=
  if cfg.parity = 0 then some w
  else
    match cfg.codecKind with
    | .rs => rsDecode cfg.bufferSize cfg.parity w
    | .bch => bchDecode cfg.bufferSize cfg.parity w

end Sys2Proof.Machine
end

