-- ==== Sys2Proof/Syntax.lean ====
section
/-! DEFINITION. The command set, `CIMBAR-FEC command set, version 1` (R1): one constructor per row of
spec/opcode_table.json, in the table's order. A constructor carries the operand fields of its format
(R92, R96) and the data bytes of its transfer (R61, R90). Every constructor has data bytes, because a
transfer may bring them to a command that takes none; the length is checked when the command executes
(R100, R267). -/

namespace Sys2Proof

inductive Instr where
  /-- `NOP`, format N (R250). -/
  | nop (data : Bytes)
  /-- `ENC <data>`, format D (R150). -/
  | enc (data : Bytes)
  /-- `DEC <data>`, format D (R151). -/
  | dec (data : Bytes)
  /-- `RD`, format N (R171). -/
  | rd (data : Bytes)
  /-- `WR <data>`, format D (R174). -/
  | wr (data : Bytes)
  /-- `GOODE`, format N (R178). -/
  | goode (data : Bytes)
  /-- `GOODD`, format N (R179). -/
  | goodd (data : Bytes)
  /-- `ACCEPT g, s, <data>`, or `ACCEPT.E` where `e` is set, format A (R220). -/
  | accept (e : Bool) (g : Id16) (sid : Id16) (data : Bytes)
  /-- `FINALIZE`, format N (R225). -/
  | finalize (data : Bytes)
  /-- `RDREG r`, format R (R251). -/
  | rdreg (r : BitVec 8) (data : Bytes)
deriving DecidableEq, Repr

/-- The data bytes of a command's transfer (R61). -/
def Instr.data : Instr → Bytes
  | .nop d => d
  | .enc d => d
  | .dec d => d
  | .rd d => d
  | .wr d => d
  | .goode d => d
  | .goodd d => d
  | .accept _ _ _ d => d
  | .finalize d => d
  | .rdreg _ d => d

end Sys2Proof
end

