-- ==== Sys2Proof/WellFormed.lean ====
section
/-! DEFINITION. What makes a command one that a transfer can carry. -/

namespace Sys2Proof

/-- A transfer carries 0..`XFER_MAX` data bytes (R61, R90). The fields of a command word have their
widths in their types, so nothing else can be wrong with a command's form. -/
def dataFits (data : Bytes) : Bool := decide (data.length ≤ Config.xferMax)

/-- A command that a transfer can carry. -/
def Instr.wellFormed (i : Instr) : Bool := dataFits i.data

end Sys2Proof
end

