-- ==== Sys2Proof/Decode.lean ====
section
/-! DEFINITION. The command word: opcode map, decoder and encoder (R90 to R100, R107). -/

namespace Sys2Proof

/-- One command transfer: a 64-bit command word and its data bytes (R61, R90). -/
structure Transfer where
  word : Word64
  data : Bytes
deriving DecidableEq, Repr

/-- The rows of the opcode map (R97). -/
inductive Mnemonic where
  | nop | enc | dec | rd | wr | goode | goodd | accept | finalize | rdreg
deriving DecidableEq, Repr

/-- Every row, in the table's order. -/
def Mnemonic.all : List Mnemonic :=
  [.nop, .enc, .dec, .rd, .wr, .goode, .goodd, .accept, .finalize, .rdreg]

/-- Column `OP` of R97: bits [63:56] of the command word. -/
def Mnemonic.opcode : Mnemonic → Byte
  | .nop => 0x00#8
  | .enc => 0x10#8
  | .dec => 0x11#8
  | .rd => 0x20#8
  | .wr => 0x21#8
  | .goode => 0x22#8
  | .goodd => 0x23#8
  | .accept => 0x30#8
  | .finalize => 0x31#8
  | .rdreg => 0x40#8

/-- Column `match` of R97. -/
def Mnemonic.pattern : Mnemonic → Word64
  | .nop => 0x0000000000000000#64
  | .enc => 0x1000000000000000#64
  | .dec => 0x1100000000000000#64
  | .rd => 0x2000000000000000#64
  | .wr => 0x2100000000000000#64
  | .goode => 0x2200000000000000#64
  | .goodd => 0x2300000000000000#64
  | .accept => 0x3000000000000000#64
  | .finalize => 0x3100000000000000#64
  | .rdreg => 0x4000000000000000#64

/-- Column `mask` of R97. -/
def Mnemonic.mask : Mnemonic → Word64
  | .accept => 0xFFFEFFFF00000000#64
  | .rdreg => 0xFFFFFFFFFFFFFF00#64
  | .nop => 0xFFFFFFFFFFFFFFFF#64
  | .enc => 0xFFFFFFFFFFFFFFFF#64
  | .dec => 0xFFFFFFFFFFFFFFFF#64
  | .rd => 0xFFFFFFFFFFFFFFFF#64
  | .wr => 0xFFFFFFFFFFFFFFFF#64
  | .goode => 0xFFFFFFFFFFFFFFFF#64
  | .goodd => 0xFFFFFFFFFFFFFFFF#64
  | .finalize => 0xFFFFFFFFFFFFFFFF#64

/-- A command word selects a row iff `(w and mask) = match` (R97). -/
def selects (w : Word64) (row : Mnemonic) : Bool := w &&& row.mask == row.pattern

/-- The field `OP`, bits [63:56], of a command word, whether the word is legal or not (R91, R94). -/
def opField (w : Word64) : Byte := w.extractLsb' 56 8

/-- The field `E`, bit [48] (R91, R96). -/
def eField (w : Word64) : Bool := w.getLsbD 48

/-- The field `GID`, bits [31:16] (R91, R96). -/
def gidField (w : Word64) : Id16 := w.extractLsb' 16 16

/-- The field `SID`, bits [15:0] (R91, R96). -/
def sidField (w : Word64) : Id16 := w.extractLsb' 0 16

/-- The field `REG`, bits [7:0] (R91, R96). -/
def regField (w : Word64) : BitVec 8 := w.extractLsb' 0 8

/-- Operand assembly (R96): nothing is sign-extended, scaled or shifted. -/
def assemble (row : Mnemonic) (w : Word64) (data : Bytes) : Instr :=
  match row with
  | .nop => .nop data
  | .enc => .enc data
  | .dec => .dec data
  | .rd => .rd data
  | .wr => .wr data
  | .goode => .goode data
  | .goodd => .goodd data
  | .accept => .accept (eField w) (gidField w) (sidField w) data
  | .finalize => .finalize data
  | .rdreg => .rdreg (regField w) data

/-- Why a transfer is not a command. -/
inductive DecodeError where
  /-- The word selects no row of the opcode map (R98): the block raises `IllegalCommand`. -/
  | illegalWord
  /-- The transfer has more than `XFER_MAX` data bytes (R61): no port can bring it. -/
  | transferTooLong
deriving DecidableEq, Repr

/-- The decoder, total on every transfer: the row that the word selects (the rows are disjoint), with
its operands, or the reason why there is none (R97, R98). -/
def decode (x : Transfer) : Except DecodeError Instr :=
  if dataFits x.data then
    match Mnemonic.all.find? (selects x.word) with
    | some row => .ok (assemble row x.word x.data)
    | none => .error .illegalWord
  else .error .transferTooLong

/-- The row a command belongs to. -/
def Instr.mnemonic : Instr → Mnemonic
  | .nop _ => .nop
  | .enc _ => .enc
  | .dec _ => .dec
  | .rd _ => .rd
  | .wr _ => .wr
  | .goode _ => .goode
  | .goodd _ => .goodd
  | .accept _ _ _ _ => .accept
  | .finalize _ => .finalize
  | .rdreg _ _ => .rdreg

/-- Formats N and D: `OP`, and every other bit 0 (R92). -/
def wordOfOp (op : Byte) : Word64 := op ++ 0#56

/-- Format A: `OP`, `E` at [48], `GID` at [31:16], `SID` at [15:0], every other bit 0 (R91, R92). -/
def wordOfAccept (op : Byte) (e : Bool) (g sid : Id16) : Word64 :=
  op ++ 0#7 ++ BitVec.ofBool e ++ 0#16 ++ g ++ sid

/-- Format R: `OP`, `REG` at [7:0], every other bit 0 (R91, R92). -/
def wordOfReg (op : Byte) (r : BitVec 8) : Word64 := op ++ 0#48 ++ r

/-- The command word of a command (R91, R92, R97, R103). -/
def Instr.word (i : Instr) : Word64 :=
  match i with
  | .accept e g sid _ => wordOfAccept Mnemonic.accept.opcode e g sid
  | .rdreg r _ => wordOfReg Mnemonic.rdreg.opcode r
  | .nop _ => wordOfOp Mnemonic.nop.opcode
  | .enc _ => wordOfOp Mnemonic.enc.opcode
  | .dec _ => wordOfOp Mnemonic.dec.opcode
  | .rd _ => wordOfOp Mnemonic.rd.opcode
  | .wr _ => wordOfOp Mnemonic.wr.opcode
  | .goode _ => wordOfOp Mnemonic.goode.opcode
  | .goodd _ => wordOfOp Mnemonic.goodd.opcode
  | .finalize _ => wordOfOp Mnemonic.finalize.opcode

/-- The encoder: the transfer that hands a command to the block (R103). -/
def encode (i : Instr) : Transfer := ⟨i.word, i.data⟩

/-- The transfer that a table word stands for: the first 64 bits are the command word (bit 0 its least
significant bit), whole bytes above them, where there are any, are data bytes. A table row has 64 bits,
so its transfer has no data (log 6). -/
def transferOfTableWord (nbits w : Nat) : Transfer where
  word := BitVec.ofNat 64 (w % 2 ^ nbits)
  data := (List.range ((nbits - 64) / 8)).map fun i => BitVec.ofNat 8 (w >>> (64 + 8 * i))

/-- The command that the decoder reads from a table word; none where it refuses. -/
def decodeTableWord (nbits w : Nat) : Option Instr :=
  match decode (transferOfTableWord nbits w) with
  | .ok i => some i
  | .error _ => none

end Sys2Proof
end

