-- ==== Sys2Proof/Machine/Straps.lean ====
section
/-! DEFINITION. The validation of the configuration straps that reset makes (R303). -/

namespace Sys2Proof.Machine

/-- `CFG_OK`: the sampled configuration is valid (R21, R303). -/
def strapsValid (cfg : Cfg) : Bool :=
  decide (1 ≤ cfg.bufferSize) && decide (cfg.bufferSize ≤ 255)
    && decide (cfg.parity < cfg.bufferSize)
    && decide (cfg.flushPolicy = .strictInOrder)
    && decide (1 ≤ cfg.chunkSize) && decide (cfg.chunkSize ≤ 65535)
    && decide (1 ≤ cfg.sourceChunks) && decide (cfg.sourceChunks ≤ 65535)
    && decide (1 ≤ cfg.maxGroups) && decide (cfg.maxGroups ≤ 65536)
    && decide (cfg.sourceChunks ≤ cfg.maxSymbols) && decide (cfg.maxSymbols ≤ 65536)

end Sys2Proof.Machine
end

