-- ==== Sys2Proof/Machine/State.lean ====
section
/-! DEFINITION. The state of the machine: the block's architectural state (R20 to R50), and beside it
the ports and the collaborators, which are not state of the block but inputs and outputs of a step
(R20, R79). -/

namespace Sys2Proof.Machine

/-- The status codes (R261), in the field `STATUS` of `RSP0` and in `LASTERR.CODE`. -/
inductive Status where
  | ok
  | invalidInput
  | illegalCommand
  | cfgInvalid
deriving DecidableEq, Repr

/-- The last-error record `LASTERR` (R36). -/
structure LastErr where
  /-- `CODE`, bits [7:0]: the status code of the most recent exception; 0 where there was none. -/
  code : Status
  /-- `OP`, bits [15:8]: bits [63:56] of the command word that raised it. -/
  op : Byte
  /-- `VALID`, bit [16]: an exception has been raised since reset. -/
  valid : Bool
deriving DecidableEq, Repr

/-- `PHASE` (R41). -/
inductive Phase where
  | live
  | finalized
deriving DecidableEq, Repr

/-- `SUMMARY` (R47, R227). -/
inductive Summary where
  | success
  | partialLoss
  | failure
deriving DecidableEq, Repr

/-- The disposition codes of `ACCEPT` (R221). -/
inductive Disposition where
  | stored
  | duplicate
  | ignoredFlushed
  | erasedDropped
  | droppedNoGroup
  | droppedStoreFull
  | ignoredFinalized
  | ignoredResolved
deriving DecidableEq, Repr

/-- A stored symbol: its `sid` and its chunk (R45). -/
abbrev Symbol := Id16 × Bytes

/-- A group entry (R45). Its field `state` is the constructor; `syms` has a meaning in COLLECTING only
(it is released on the transition to RESOLVED) and `payload` in RESOLVED only, so each constructor holds
the one field that has a meaning in it (log 9). -/
inductive GroupEntry where
  /-- COLLECTING: the stored symbols, in order of acceptance. -/
  | collecting (syms : List Symbol)
  /-- RESOLVED: the reconstructed bytes of the group, held until it may flush. -/
  | resolved (payload : Bytes)
deriving DecidableEq, Repr

/-- The group table `GT` (R43): entries by `group_id`, kept with strictly rising ids so that equal
tables are equal lists. -/
abbrev GroupTable := List (Nat × GroupEntry)

/-- The complete architectural state of the block (R20). -/
structure Block where
  /-- `CFG` (R21): the configuration as sampled at reset. -/
  cfg : Cfg
  /-- `CFG_OK` (R21, R303). -/
  cfgOk : Bool
  /-- `ENC_GOOD` (R25): end of stream not yet observed by the encoder unit. -/
  encGood : Bool
  /-- `DEC_GOOD` (R26). -/
  decGood : Bool
  /-- `FAULT` (R27). -/
  fault : Bool
  /-- `LAST_BAD` (R27). -/
  lastBad : Bool
  /-- `DCP_FAULT` (R27). -/
  dcpFault : Bool
  /-- `OVERFLOW` (R27). -/
  overflow : Bool
  /-- `LASTERR` (R36). -/
  lastErr : LastErr
  /-- `CNT_DECODED_OK` (R37). -/
  cntDecodedOk : Word64
  /-- `CNT_BADCHUNK` (R37). -/
  cntBadChunk : Word64
  /-- `CNT_FAULTS` (R37). -/
  cntFaults : Word64
  /-- `BYTES_RECOVERED` (R37). -/
  bytesRecovered : Word64
  /-- `CNT_GROUPS_FLUSHED` (R37). -/
  cntGroupsFlushed : Word64
  /-- `CNT_DCP_FAULT` (R37). -/
  cntDcpFault : Word64
  /-- `PHASE` (R41). -/
  phase : Phase
  /-- `SUMMARY` (R47). -/
  summary : Summary
  /-- `NEXT_GROUP` (R42), an integer 0..65536. -/
  nextGroup : Nat
  /-- `HIGH` (R42), an integer 0..65536. -/
  high : Nat
  /-- `GT` with the chunks it holds (R43 to R46). -/
  gt : GroupTable
deriving DecidableEq, Repr

/-- One response (R93, R94). -/
structure Response where
  rsp0 : Word64
  rsp1 : Word64
  rdata : Bytes
deriving DecidableEq, Repr

/-- One call of a stream primitive, with its answer (R62 to R65). -/
inductive Call where
  /-- `SrcRead(n)` answered `(count, bytes)`. -/
  | srcRead (n : Nat) (count : Int) (bytes : Bytes)
  /-- `SrcOk()` answered this bit. -/
  | srcOk (good : Bool)
  /-- `SinkOk()` answered this bit. -/
  | sinkOk (good : Bool)
  /-- `SinkWrite(bytes)`. -/
  | sinkWrite (bytes : Bytes)
  /-- `DcpPush(offset, bytes)` answered this fault bit. -/
  | dcpPush (offset : Nat) (bytes : Bytes) (fault : Bool)
deriving DecidableEq, Repr

/-- What can come to the block from the host: a command transfer (R61), or the reset input with the
straps that it samples, between two commands or during one (R300, R303). -/
inductive PortEvent where
  /-- A command, executed to completion (R75). -/
  | command (x : Transfer)
  /-- The reset input, with no command executing. -/
  | reset (straps : Cfg)
  /-- A command, and the reset input while it executes, after `made` of its primitive calls. -/
  | resetDuring (x : Transfer) (made : Nat) (straps : Cfg)
deriving DecidableEq, Repr

/-- The ports and the collaborators (R20, R60, R79): the model's own fields, no state of the block. -/
structure World where
  /-- What the host has still to hand to the block, in the order in which the port takes it (R75, R77). -/
  inbox : List PortEvent
  /-- Every response given, oldest first (R93). -/
  outbox : List Response
  /-- Every primitive call made, oldest first (R75, R76). -/
  calls : List Call
  /-- The answers of the coming `SrcRead` calls, as far as they are written down (R79). -/
  srcAnswers : List SrcAnswer
  /-- The answers of the coming `SrcOk` calls, as far as they are written down (R79). -/
  srcOkAnswers : List Bool
  /-- The answers of the coming `SinkOk` calls, as far as they are written down (R79). -/
  sinkOkAnswers : List Bool
  /-- The answers of the coming `DcpPush` calls, as far as they are written down (R79). -/
  dcpAnswers : List Bool
deriving DecidableEq, Repr

/-- The state of the machine. -/
structure State where
  /-- The block. -/
  blk : Block
  /-- Its surroundings. -/
  env : World
deriving DecidableEq, Repr

/-- Why the machine stops. -/
inductive Fault where
  /-- Raised by `step` alone, when the next event of the inbox brings a transfer of more than `XFER_MAX`
  data bytes. No such transfer exists (R61, R90), so the spec gives it no effect. SAFE: the model stops where
  the hardware has no such input. -/
  | transferTooLong
deriving DecidableEq, Repr

/-- Why an instruction is rejected. -/
inductive Refusal where
  /-- Raised by an arm of `exec` whose instruction has no meaning yet. SAFE. No arm of this model raises
  it: every instruction has its meaning. -/
  | notModelled (mnemonic : String)
deriving DecidableEq, Repr

/-- The block right after a reset that samples these straps (R50, R301). -/
def Block.afterReset (straps : Cfg) (ok : Bool) : Block where
  cfg := straps
  cfgOk := ok
  encGood := true
  decGood := true
  fault := false
  lastBad := false
  dcpFault := false
  overflow := false
  lastErr := ⟨.ok, 0#8, false⟩
  cntDecodedOk := 0#64
  cntBadChunk := 0#64
  cntFaults := 0#64
  bytesRecovered := 0#64
  cntGroupsFlushed := 0#64
  cntDcpFault := 0#64
  phase := .live
  summary := .success
  nextGroup := 0
  high := 0
  gt := []

/-- Surroundings in which nothing has happened and nothing is written down. -/
def World.quiet : World where
  inbox := []
  outbox := []
  calls := []
  srcAnswers := []
  srcOkAnswers := []
  sinkOkAnswers := []
  dcpAnswers := []

/-- The machine right after reset (R50, R301), with the straps of `Config.straps` (log 1) and no command
waiting (log 6). -/
def State.reset : State where
  blk := Block.afterReset Config.straps (strapsValid Config.straps)
  env := World.quiet

end Sys2Proof.Machine
end

