-- ==== Sys2Proof/Machine/ErasureCode.lean ====
section
/-! DEFINITION. The erasure code: rows of symbols, valid symbols, and the reconstruction of a group
(R202 to R205, R231). A vector of K bits is held as the number whose bit i is its element i. -/

namespace Sys2Proof.Machine

/-- `row(s)` (R202): a source symbol for s < K, a repair symbol above. -/
def rowOf (k s : Nat) : Nat := if s < k then 2 ^ s else (s - k) % (2 ^ k - 1) + 1

/-- The `xor` of the chunks at the positions whose bit is 1, position 0 first; `zeros(c)` where no bit is
1 (R203, R231). -/
def combine (c : Nat) (mask : Nat) (chunks : List Bytes) : Bytes :=
  (chunks.zipIdx.filter fun x => mask.testBit x.2).foldl (fun acc x => xorBytes acc x.1) (zeros c)

/-- `Sym(s)`: the symbol of id s for these K source chunks (R203). The sender computes it, never the
block. -/
def validSymbol (k c : Nat) (sources : List Bytes) (s : Nat) : Bytes :=
  combine c (rowOf k s) sources

/-- One equation of the elimination: a row, and the set of basis positions whose rows sum to it, as the
number whose bit u is 1 for each position u of the set. -/
structure Equation where
  row : Nat
  combo : Nat
deriving DecidableEq, Repr

/-- The sum of two equations over GF(2). -/
def Equation.add (a b : Equation) : Equation := ⟨a.row ^^^ b.row, a.combo ^^^ b.combo⟩

/-- An equation with the leading bit of every listed one taken out of it. -/
def reduceBy (eqs : List Equation) (e : Equation) : Equation :=
  eqs.foldl (fun acc q => if acc.row.testBit q.row.log2 then acc.add q else acc) e

/-- The equations with one more, in reduced form: the new leading bit is taken out of all others. -/
def insertEquation (eqs : List Equation) (e : Equation) : List Equation :=
  eqs.map (fun q => if q.row.testBit e.row.log2 then q.add e else q) ++ [e]

/-- Steps 2 and 4 of `reconstruct` as they go (R205): the basis J so far, and its rows in reduced form. -/
structure Elimination where
  basis : List Symbol
  eqs : List Equation
deriving DecidableEq, Repr

/-- Step 2 for one pair: it joins J iff J is short of K and its row is not in the span of J's rows. -/
def eliminateStep (k : Nat) (st : Elimination) (x : Symbol) : Elimination :=
  let e := reduceBy st.eqs ⟨rowOf k x.1.toNat, 2 ^ st.basis.length⟩
  if st.basis.length < k ∧ e.row ≠ 0 then
    { basis := st.basis ++ [x], eqs := insertEquation st.eqs e }
  else st

/-- Step 2, over the pairs in order (R205). -/
def eliminate (k : Nat) (syms : List Symbol) : Elimination :=
  syms.foldl (eliminateStep k) ⟨[], []⟩

/-- Step 1: the pairs by ascending sid (R205). -/
def sortSymbols (syms : List Symbol) : List Symbol :=
  syms.insertionSort fun a b => a.1.toNat ≤ b.1.toNat

/-- The basis J chosen by steps 1 and 2, with its rows reduced. -/
def chosenBasis (k : Nat) (syms : List Symbol) : Elimination := eliminate k (sortSymbols syms)

/-- Row i of X = A^-1: the positions of J whose rows sum to the i-th unit vector (step 4 of R205). -/
def inverseRow (eqs : List Equation) (i : Nat) : Nat :=
  match eqs.find? fun q => q.row == 2 ^ i with
  | some q => q.combo
  | none => 0

/-- `reconstruct(syms)` (R205): none iff J has fewer than K members, else S_0 ‖ .. ‖ S_(K-1). -/
def reconstruct (k c : Nat) (syms : List Symbol) : Option Bytes :=
  let j := chosenBasis k syms
  if j.basis.length < k then none
  else
    some ((List.range k).flatMap fun i => combine c (inverseRow j.eqs i) (j.basis.map Prod.snd))

end Sys2Proof.Machine
end

