-- ==== Sys2Proof/Machine/Flags.lean ====
section
/-! DEFINITION. The words assembled from state and results: response words and their `VALUE` layouts
(R94, R105, R106), and the numbered status registers (R30 to R42). -/

namespace Sys2Proof.Machine

/-- The status code as the field `STATUS` and the field `CODE` carry it (R261). -/
def statusCode : Status → Byte
  | .ok => 0x00#8
  | .invalidInput => 0x01#8
  | .illegalCommand => 0x02#8
  | .cfgInvalid => 0x03#8

/-- The disposition code of `VALUE[7:0]` (R221). -/
def dispositionCode : Disposition → Byte
  | .stored => 0#8
  | .duplicate => 1#8
  | .ignoredFlushed => 2#8
  | .erasedDropped => 3#8
  | .droppedNoGroup => 4#8
  | .droppedStoreFull => 5#8
  | .ignoredFinalized => 6#8
  | .ignoredResolved => 7#8

/-- `SUMMARY` as two bits (R47). -/
def summaryCode : Summary → BitVec 2
  | .success => 0#2
  | .partialLoss => 1#2
  | .failure => 2#2

/-- `CODEC_KIND` as one bit (R32). -/
def codecKindBit : CodecKind → BitVec 1
  | .rs => 0#1
  | .bch => 1#1

/-- `FLUSH_POLICY` as one bit (R32). -/
def flushPolicyBit : FlushPolicy → BitVec 1
  | .strictInOrder => 0#1
  | .reserved => 1#1

/-- `PHASE` as the bit `FINALIZED` (R38). -/
def finalizedBit : Phase → Bool
  | .live => false
  | .finalized => true

/-- `RSP0`: `OP` [63:56], `STATUS` [55:48], 0 [47:32], `DLEN` [31:0] (R94). -/
def rsp0Word (op : Byte) (status : Status) (dlen : Nat) : Word64 :=
  op ++ statusCode status ++ 0#16 ++ BitVec.ofNat 32 dlen

/-- A value whose only field is bit [0] (`DEC`, `GOODE`, `GOODD`; R106). -/
def bitValue (b : Bool) : Word64 := 0#63 ++ BitVec.ofBool b

/-- `VALUE` of `ENC`: bits [15:0] = `len(rdata)` (R106). -/
def encValue (len : Nat) : Word64 := 0#48 ++ BitVec.ofNat 16 len

/-- `VALUE` of `RD`: the 64-bit two's complement of the count (R106). -/
def rdValue (count : Int) : Word64 := BitVec.ofInt 64 count

/-- `VALUE` of `WR`: bit [0] = `ok`, bits [31:16] = number of bytes written to the sink (R106). -/
def wrValue (ok : Bool) (written : Nat) : Word64 :=
  0#32 ++ BitVec.ofNat 16 written ++ 0#15 ++ BitVec.ofBool ok

/-- `VALUE` of `ACCEPT`: `DISP` [7:0], `ATTEMPTED` [8], `RESOLVED_NOW` [9], `FLUSHED_N` [63:40] (R106). -/
def acceptValue (disp : Disposition) (attempted resolvedNow : Bool) (flushedN : Nat) : Word64 :=
  BitVec.ofNat 24 flushedN ++ 0#30 ++ BitVec.ofBool resolvedNow ++ BitVec.ofBool attempted
    ++ dispositionCode disp

/-- `VALUE` of `FINALIZE`: `NRANGES` [31:0], `SUMMARY` [33:32], `FLUSHED_N` [63:40] (R106). -/
def finalizeValue (nranges : Nat) (summary : Summary) (flushedN : Nat) : Word64 :=
  BitVec.ofNat 24 flushedN ++ 0#6 ++ summaryCode summary ++ BitVec.ofNat 32 nranges

/-- A 64-bit unsigned integer as eight bytes, least significant first (R68, R105). -/
def littleEndian64 (n : Nat) : Bytes :=
  (List.range 8).map fun i => BitVec.ofNat 8 (n >>> (8 * i))

/-- A range record: `lo`, then `hi` (R105). -/
def rangeRecord (lo hi : Nat) : Bytes := littleEndian64 lo ++ littleEndian64 hi

/-- `ID`, register 0x00 (R35). -/
def idReg : Word64 := 0x43494D4246454331#64

/-- `CFG0`, register 0x01 (R32). -/
def cfg0Reg (cfg : Cfg) : Word64 :=
  0#46 ++ flushPolicyBit cfg.flushPolicy ++ codecKindBit cfg.codecKind ++ cfg.p ++ cfg.b

/-- `CFG1`, register 0x02 (R33). -/
def cfg1Reg (cfg : Cfg) : Word64 := 0#32 ++ cfg.k ++ cfg.c

/-- `CFG2`, register 0x03 (R34). -/
def cfg2Reg (cfg : Cfg) : Word64 := 0#15 ++ cfg.sMax ++ 0#15 ++ cfg.gMax

/-- `STATUS`, register 0x04, assembled when it is read (R38). -/
def statusReg (b : Block) : Word64 :=
  0#54 ++ summaryCode b.summary ++ BitVec.ofBool b.overflow ++ BitVec.ofBool b.dcpFault
    ++ BitVec.ofBool b.lastBad ++ BitVec.ofBool b.fault ++ BitVec.ofBool (finalizedBit b.phase)
    ++ BitVec.ofBool b.decGood ++ BitVec.ofBool b.encGood ++ BitVec.ofBool b.cfgOk

/-- `LASTERR`, register 0x05 (R36). -/
def lastErrReg (e : LastErr) : Word64 :=
  0#47 ++ BitVec.ofBool e.valid ++ e.op ++ statusCode e.code

/-- Whether a group entry is RESOLVED (R45). -/
def GroupEntry.isResolved : GroupEntry → Bool
  | .collecting _ => false
  | .resolved _ => true

/-- `GROUPS_LIVE`, register 0x0E: the entries of `GT`, and how many of them are RESOLVED (R39). -/
def groupsLiveReg (gt : GroupTable) : Word64 :=
  0#15 ++ BitVec.ofNat 17 (gt.countP fun x => GroupEntry.isResolved x.2) ++ 0#15
    ++ BitVec.ofNat 17 gt.length

/-- A 17-bit register: the value in bits [16:0], the other bits 0 (R42). -/
def cursorReg (n : Nat) : Word64 := 0#47 ++ BitVec.ofNat 17 n

/-- The register map (R31): the content of register `r`, none where there is no such register (R30). -/
def regRead (b : Block) (r : BitVec 8) : Option Word64 :=
  match r.toNat with
  | 0x00 => some idReg
  | 0x01 => some (cfg0Reg b.cfg)
  | 0x02 => some (cfg1Reg b.cfg)
  | 0x03 => some (cfg2Reg b.cfg)
  | 0x04 => some (statusReg b)
  | 0x05 => some (lastErrReg b.lastErr)
  | 0x06 => some b.cntDecodedOk
  | 0x07 => some b.cntBadChunk
  | 0x08 => some b.cntFaults
  | 0x09 => some b.bytesRecovered
  | 0x0A => some b.cntGroupsFlushed
  | 0x0B => some b.cntDcpFault
  | 0x0C => some (cursorReg b.nextGroup)
  | 0x0D => some (cursorReg b.high)
  | 0x0E => some (groupsLiveReg b.gt)
  | _ => none

end Sys2Proof.Machine
end

