-- ==== Sys2Proof/Machine/Operands.lean ====
section
/-! DEFINITION. What data a command admits (R70, R100, R264). The operand fields of the command word are
assembled by the decoder (R96). -/

namespace Sys2Proof.Machine

/-- Formats N and R: no data (R70). -/
def noDataAdmitted (data : Bytes) : Bool := decide (data.length = 0)

/-- `ENC`: at most D bytes if P > 0, any length if P = 0 (R70). -/
def payloadAdmitted (cfg : Cfg) (data : Bytes) : Bool :=
  decide (cfg.parity = 0) || decide (data.length ≤ cfg.payloadSize)

/-- `DEC`, `WR`: exactly B bytes if P > 0, any length if P = 0 (R70). -/
def codewordAdmitted (cfg : Cfg) (data : Bytes) : Bool :=
  decide (cfg.parity = 0) || decide (data.length = cfg.bufferSize)

/-- `ACCEPT`: exactly C bytes, whatever `E` is (R70, R220). -/
def chunkAdmitted (cfg : Cfg) (data : Bytes) : Bool := decide (data.length = cfg.chunkSize)

end Sys2Proof.Machine
end

