-- ==== Sys2Proof/Machine/Ops.lean ====
section
/-! DEFINITION. The shared operations: the stream primitives (R62 to R65), the response (R93, R94), the
exception entry (R267, R268), the group table (R43, R45), the flush (R215, R216), and reset (R300 to
R303). -/

namespace Sys2Proof.Machine

/-! ### The collaborators' answers (R79) -/

/-- The count of a source's answer to `SrcRead(n)` (R62). -/
def srcCount (n : Nat) : SrcAnswer → Int
  | .bytes l => ((l.take n).length : Int)
  | .ended k => -(k.val : Int)

/-- The bytes of a source's answer to `SrcRead(n)`: exactly max(count, 0) of them (R62). -/
def srcBytes (n : Nat) : SrcAnswer → Bytes
  | .bytes l => l.take n
  | .ended _ => []

/-- The next answer of a collaborator: the first one written down, else the free value. -/
def nextAnswer {α : Type} (written : List α) (free : α) : α := written.headD free

/-- The answer the source gives to the next `SrcRead` (R62, R79). -/
def nextSrcAnswer (env : World) : SrcAnswer :=
  nextAnswer env.srcAnswers (Config.freeSrcAnswer env.calls.length)

/-- The bit the next `SrcOk()` returns (R64, R79). -/
def nextSrcOk (env : World) : Bool :=
  nextAnswer env.srcOkAnswers (Config.freeSrcOk env.calls.length)

/-- The bit the next `SinkOk()` returns (R64, R79). -/
def nextSinkOk (env : World) : Bool :=
  nextAnswer env.sinkOkAnswers (Config.freeSinkOk env.calls.length)

/-- The fault bit the next `DcpPush` returns (R65, R79). -/
def nextDcpFault (env : World) : Bool :=
  nextAnswer env.dcpAnswers (Config.freeDcpFault env.calls.length)

/-! ### The stream primitives -/

/-- `SrcRead(n)` (R62). -/
def srcRead (n : Nat) (s : State) : State :=
  { s with env := { s.env with
      calls := s.env.calls
        ++ [.srcRead n (srcCount n (nextSrcAnswer s.env)) (srcBytes n (nextSrcAnswer s.env))]
      srcAnswers := s.env.srcAnswers.tail } }

/-- `SrcOk()` (R64). -/
def srcOk (s : State) : State :=
  { s with env := { s.env with
      calls := s.env.calls ++ [.srcOk (nextSrcOk s.env)]
      srcOkAnswers := s.env.srcOkAnswers.tail } }

/-- `SinkOk()` (R64). -/
def sinkOk (s : State) : State :=
  { s with env := { s.env with
      calls := s.env.calls ++ [.sinkOk (nextSinkOk s.env)]
      sinkOkAnswers := s.env.sinkOkAnswers.tail } }

/-- `SinkWrite(bytes)` (R63). -/
def sinkWrite (bytes : Bytes) (s : State) : State :=
  { s with env := { s.env with calls := s.env.calls ++ [.sinkWrite bytes] } }

/-- `DcpPush(offset, bytes)` (R65). -/
def dcpPush (offset : Nat) (bytes : Bytes) (s : State) : State :=
  { s with env := { s.env with
      calls := s.env.calls ++ [.dcpPush offset bytes (nextDcpFault s.env)]
      dcpAnswers := s.env.dcpAnswers.tail } }

/-! ### The response and the exception entry -/

/-- One response with status OK (R93, R94). -/
def respond (op : Byte) (value : Word64) (rdata : Bytes) (s : State) : State :=
  { s with env := { s.env with
      outbox := s.env.outbox ++ [⟨rsp0Word op .ok rdata.length, value, rdata⟩] } }

/-- Exception entry (R268): the fault bookkeeping, the response with the status code, nothing else. There
is no return from an exception (R270). -/
def raise (x : Status) (op : Byte) (s : State) : State where
  blk := { s.blk with
    fault := true
    cntFaults := s.blk.cntFaults + 1#64
    lastErr := ⟨x, op, true⟩ }
  env := { s.env with outbox := s.env.outbox ++ [⟨rsp0Word op x 0, 0#64, []⟩] }

/-- Checks 3 and 4 of R267 for every command but `NOP` and `RDREG`: the configuration, then the data
length, then the command's own effect. -/
def guarded (op : Byte) (admitted : Bool) (body : State → State) (s : State) : State :=
  if s.blk.cfgOk = false then raise .cfgInvalid op s
  else if admitted = false then raise .invalidInput op s
  else body s

/-- Check 4 of R267 alone, for `NOP` and `RDREG`, which run with an invalid configuration (R250, R251). -/
def lengthGuarded (op : Byte) (admitted : Bool) (body : State → State) (s : State) : State :=
  if admitted = false then raise .invalidInput op s else body s

/-! ### The group table -/

/-- `GT[g]`, none where g is not in `GT` (R43). -/
def gtGet : GroupTable → Nat → Option GroupEntry
  | [], _ => none
  | (h, e) :: rest, g => if g = h then some e else gtGet rest g

/-- `GT[g] <- e`, whether or not g was in `GT` (R43); ids stay strictly rising. -/
def gtSet : GroupTable → Nat → GroupEntry → GroupTable
  | [], g, e => [(g, e)]
  | (h, d) :: rest, g, e =>
    if g < h then (g, e) :: (h, d) :: rest
    else if g = h then (g, e) :: rest
    else (h, d) :: gtSet rest g e

/-- Remove g from `GT` if present (R215, R225). -/
def gtErase (gt : GroupTable) (g : Nat) : GroupTable := gt.filter fun x => x.1 != g

/-- The canonical form of `GT`: strictly rising ids. -/
def gtWf (gt : GroupTable) : Prop := gt.Pairwise fun a b => a.1 < b.1

/-- The payload of g where g is in `GT` and RESOLVED (R45). -/
def resolvedPayload (gt : GroupTable) (g : Nat) : Option Bytes :=
  match gtGet gt g with
  | some (.resolved payload) => some payload
  | some (.collecting _) => none
  | none => none

/-! ### Flushing -/

/-- What the answer f of a `DcpPush` does to the block (R215, R217). -/
def recordPush (f : Bool) (b : Block) : Block :=
  { b with
    dcpFault := b.dcpFault || f
    cntDcpFault := b.cntDcpFault + (if f then 1#64 else 0#64) }

/-- The counters of a flush, and the entry's removal (R215). -/
def recordFlush (g : Nat) (b : Block) : Block :=
  { b with
    bytesRecovered := b.bytesRecovered + BitVec.ofNat 64 b.cfg.groupSize
    cntGroupsFlushed := b.cntGroupsFlushed + 1#64
    gt := gtErase b.gt g }

/-- `flush(g)` of a RESOLVED group with this payload (R215). -/
def flush (g : Nat) (payload : Bytes) (s : State) : State :=
  let pushed := dcpPush (g * s.blk.cfg.groupSize) payload s
  { pushed with blk := recordFlush g (recordPush (nextDcpFault s.env) s.blk) }

/-- `NEXT_GROUP <- NEXT_GROUP + 1` (R216). -/
def advanceCursor (s : State) : State :=
  { s with blk := { s.blk with nextGroup := s.blk.nextGroup + 1 } }

/-- The flush loop (R216), at most `fuel` turns; it gives the state and `FLUSHED_N` counted up from n. -/
def flushLoop : Nat → Nat → State → State × Nat
  | 0, n, s => (s, n)
  | fuel + 1, n, s =>
    if s.blk.nextGroup ≤ 65535 then
      match resolvedPayload s.blk.gt s.blk.nextGroup with
      | some payload => flushLoop fuel (n + 1) (advanceCursor (flush s.blk.nextGroup payload s))
      | none => (s, n)
    else (s, n)

/-- The flush loop, whole (R216): every turn removes an entry of `GT`, so as many turns as `GT` has
entries are enough. -/
def flushAll (s : State) : State × Nat := flushLoop s.blk.gt.length 0 s

/-! ### Reset -/

/-- The reset input (R300 to R303): the block takes its reset values and samples the straps; the
surroundings are not touched (R302). -/
def resetBlock (straps : Cfg) (s : State) : State :=
  { s with blk := Block.afterReset straps (strapsValid straps) }

end Sys2Proof.Machine
end

