-- ==== Sys2Proof/Machine/Codeword.lean ====
section
/-! DEFINITION. The codec commands `ENC` and `DEC` (R150, R151). They write no state of the block. -/

namespace Sys2Proof.Machine

/-- The response of `DEC` for a result of `decode` (R106, R151). -/
def respondDecoded (op : Byte) (result : Option Bytes) (s : State) : State :=
  match result with
  | some payload => respond op (bitValue true) payload s
  | none => respond op (bitValue false) [] s

/-- `ENC` (R150). -/
def execEnc (data : Bytes) (s : State) : Host.Outcome State Fault Refusal :=
  .next (guarded Mnemonic.enc.opcode (payloadAdmitted s.blk.cfg data)
    (respond Mnemonic.enc.opcode (encValue (codecEncode s.blk.cfg data).length)
      (codecEncode s.blk.cfg data)) s)

/-- `DEC` (R151). -/
def execDec (data : Bytes) (s : State) : Host.Outcome State Fault Refusal :=
  .next (guarded Mnemonic.dec.opcode (codewordAdmitted s.blk.cfg data)
    (respondDecoded Mnemonic.dec.opcode (codecDecode s.blk.cfg data)) s)

end Sys2Proof.Machine
end

