-- ==== Sys2Proof/Machine/ErasureSink.lean ====
section
/-! DEFINITION. The Erasure Reassembly Sink: `ACCEPT` and `FINALIZE` (R200 to R232). -/

namespace Sys2Proof.Machine

/-! ### `ACCEPT` -/

/-- `HIGH <- max(HIGH, g + 1)` (R208). -/
def raiseHigh (g : Nat) (s : State) : State :=
  { s with blk := { s.blk with high := max s.blk.high (g + 1) } }

/-- `OVERFLOW <- 1` (R212, R213). -/
def setOverflow (s : State) : State := { s with blk := { s.blk with overflow := true } }

/-- `GT[g] <- e` (R212, R214). -/
def putEntry (g : Nat) (e : GroupEntry) (s : State) : State :=
  { s with blk := { s.blk with gt := gtSet s.blk.gt g e } }

/-- The response of an `ACCEPT` that stored nothing (R106): `ATTEMPTED`, `RESOLVED_NOW` and `FLUSHED_N`
are 0. -/
def acceptWithout (op : Byte) (disp : Disposition) (s : State) : State :=
  respond op (acceptValue disp false false 0) [] s

/-- Step 10 and the response of an `ACCEPT` that stored its chunk (R216, R220). -/
def acceptFlush (op : Byte) (attempted resolvedNow : Bool) (s : State) : State :=
  respond op (acceptValue .stored attempted resolvedNow (flushAll s).2) [] (flushAll s).1

/-- Steps 9 and 10 for a group whose stored symbols are now `syms` (R211, R214). -/
def acceptStored (op : Byte) (g : Nat) (syms : List Symbol) (s : State) : State :=
  if s.blk.cfg.sourceChunks ≤ syms.length then
    match reconstruct s.blk.cfg.sourceChunks s.blk.cfg.chunkSize syms with
    | some payload => acceptFlush op true true (putEntry g (.resolved payload) s)
    | none => acceptFlush op true false (putEntry g (.collecting syms) s)
  else acceptFlush op false false (putEntry g (.collecting syms) s)

/-- Steps 7 and 8 for a COLLECTING group that holds `syms` (R210, R213). -/
def acceptSymbol (op : Byte) (g : Nat) (sid : Id16) (chunk : Bytes) (syms : List Symbol)
    (s : State) : State :=
  if syms.any (fun x => x.1 == sid) then acceptWithout op .duplicate s
  else if s.blk.cfg.maxSymbols ≤ syms.length then
    acceptWithout op .droppedStoreFull (setOverflow s)
  else acceptStored op g (syms ++ [(sid, chunk)]) s

/-- Steps 5 and 6, for a group not yet flushed (R209, R212). -/
def acceptRouted (op : Byte) (g : Nat) (sid : Id16) (chunk : Bytes) (s : State) : State :=
  match gtGet s.blk.gt g with
  | some (.resolved _) => acceptWithout op .ignoredResolved s
  | some (.collecting syms) => acceptSymbol op g sid chunk syms s
  | none =>
    if s.blk.cfg.maxGroups ≤ s.blk.gt.length then acceptWithout op .droppedNoGroup (setOverflow s)
    else acceptSymbol op g sid chunk [] (putEntry g (.collecting []) s)

/-- Steps 1 to 4 (R206 to R209, R229). -/
def acceptChunk (op : Byte) (e : Bool) (g : Nat) (sid : Id16) (chunk : Bytes) (s : State) : State :=
  if s.blk.phase = .finalized then acceptWithout op .ignoredFinalized s
  else if e then acceptWithout op .erasedDropped s
  else if g < s.blk.nextGroup then acceptWithout op .ignoredFlushed s
  else acceptRouted op g sid chunk (raiseHigh g s)

/-- `ACCEPT` (R220). -/
def execAccept (e : Bool) (g sid : Id16) (data : Bytes) (s : State) :
    Host.Outcome State Fault Refusal :=
  .next (guarded Mnemonic.accept.opcode (chunkAdmitted s.blk.cfg data)
    (acceptChunk Mnemonic.accept.opcode e g.toNat sid data) s)

/-! ### `FINALIZE` -/

/-- What the walk of `FINALIZE` has so far: the state, `FLUSHED_N`, and the groups reported. -/
structure FinalWalk where
  st : State
  flushedN : Nat
  lost : List Nat
deriving DecidableEq, Repr

/-- One group of the walk: flushed if RESOLVED, else reported and its entry abandoned (R225, R226). -/
def finalVisit (w : FinalWalk) (g : Nat) : FinalWalk :=
  match resolvedPayload w.st.blk.gt g with
  | some payload => { w with st := flush g payload w.st, flushedN := w.flushedN + 1 }
  | none =>
    { w with
      st := { w.st with blk := { w.st.blk with gt := gtErase w.st.blk.gt g } }
      lost := w.lost ++ [g] }

/-- The walk over g = NEXT_GROUP, .., HIGH - 1 in ascending order (R225). -/
def finalWalk (s : State) : FinalWalk :=
  (List.range' s.blk.nextGroup (s.blk.high - s.blk.nextGroup)).foldl finalVisit ⟨s, 0, []⟩

/-- `SUMMARY` for the reported groups and the groups flushed in the session (R227). -/
def summaryOf (lost : List Nat) (cntGroupsFlushed : Word64) : Summary :=
  if lost = [] then .success
  else if 0#64 < cntGroupsFlushed then .partialLoss
  else .failure

/-- `NEXT_GROUP <- HIGH`, `PHASE <- FINALIZED`, `SUMMARY` (R225). -/
def endSession (lost : List Nat) (s : State) : State :=
  { s with blk := { s.blk with
      nextGroup := s.blk.high
      phase := .finalized
      summary := summaryOf lost s.blk.cntGroupsFlushed } }

/-- The range records, one per reported group, not merged (R105, R226). -/
def lossRecords (groupSize : Nat) (lost : List Nat) : Bytes :=
  lost.flatMap fun g => rangeRecord (g * groupSize) ((g + 1) * groupSize)

/-- The effect of `FINALIZE` (R225, R228). -/
def finalizeSession (op : Byte) (s : State) : State :=
  match s.blk.phase with
  | .live =>
    let w := finalWalk s
    let t := endSession w.lost w.st
    respond op (finalizeValue w.lost.length t.blk.summary w.flushedN)
      (lossRecords s.blk.cfg.groupSize w.lost) t
  | .finalized => respond op (finalizeValue 0 s.blk.summary 0) [] s

/-- `FINALIZE` (R225). -/
def execFinalize (data : Bytes) (s : State) : Host.Outcome State Fault Refusal :=
  .next (guarded Mnemonic.finalize.opcode (noDataAdmitted data)
    (finalizeSession Mnemonic.finalize.opcode) s)

end Sys2Proof.Machine
end

