-- ==== Sys2Proof/Machine/StreamAdapter.lean ====
section
/-! DEFINITION. The FEC Stream Adapter: `RD`, `WR`, `GOODE`, `GOODD` (R170 to R182). -/

namespace Sys2Proof.Machine

/-- `ENC_GOOD <- 0` (R173). -/
def clearEncGood (s : State) : State := { s with blk := { s.blk with encGood := false } }

/-- What `RD` does with the source's answer `(count, bytes)` (R171, R172). -/
def answerRead (op : Byte) (count : Int) (bytes : Bytes) (s : State) : State :=
  if count ≤ 0 then respond op (rdValue count) [] (clearEncGood s)
  else if 0 < s.blk.cfg.parity then
    respond op (rdValue s.blk.cfg.bufferSize) (codecEncode s.blk.cfg bytes) s
  else respond op (rdValue count) bytes s

/-- The effect of `RD`: one `SrcRead(D)`, then the answer (R171). -/
def readPath (op : Byte) (s : State) : State :=
  let n := s.blk.cfg.payloadSize
  answerRead op (srcCount n (nextSrcAnswer s.env)) (srcBytes n (nextSrcAnswer s.env)) (srcRead n s)

/-- `write_erasure_placeholder`: the BadChunk marker, D bytes of value 0 (R176). -/
def writeErasurePlaceholder (s : State) : State := sinkWrite (zeros s.blk.cfg.payloadSize) s

/-- The bookkeeping of a `WR` whose codeword decoded (R174). -/
def recordDecoded (s : State) : State :=
  { s with blk := { s.blk with cntDecodedOk := s.blk.cntDecodedOk + 1#64, lastBad := false } }

/-- The bookkeeping of a `WR` whose codeword was uncorrectable (R174, R181). -/
def recordBadChunk (s : State) : State :=
  { s with blk := { s.blk with cntBadChunk := s.blk.cntBadChunk + 1#64, lastBad := true } }

/-- The effect of `WR` (R174, R175). -/
def writePath (op : Byte) (data : Bytes) (s : State) : State :=
  if s.blk.cfg.parity = 0 then respond op (wrValue true data.length) [] (sinkWrite data s)
  else
    match codecDecode s.blk.cfg data with
    | some payload =>
      respond op (wrValue true s.blk.cfg.payloadSize) [] (recordDecoded (sinkWrite payload s))
    | none =>
      respond op (wrValue false s.blk.cfg.payloadSize) [] (recordBadChunk (writeErasurePlaceholder s))

/-- `RD` (R171). -/
def execRd (data : Bytes) (s : State) : Host.Outcome State Fault Refusal :=
  .next (guarded Mnemonic.rd.opcode (noDataAdmitted data) (readPath Mnemonic.rd.opcode) s)

/-- `WR` (R174). -/
def execWr (data : Bytes) (s : State) : Host.Outcome State Fault Refusal :=
  .next (guarded Mnemonic.wr.opcode (codewordAdmitted s.blk.cfg data)
    (writePath Mnemonic.wr.opcode data) s)

/-- `GOODE` (R178): `SrcOk()` is sampled once, whatever `ENC_GOOD` is. -/
def execGoode (data : Bytes) (s : State) : Host.Outcome State Fault Refusal :=
  .next (guarded Mnemonic.goode.opcode (noDataAdmitted data)
    (fun t => respond Mnemonic.goode.opcode (bitValue (t.blk.encGood && nextSrcOk t.env)) [] (srcOk t)) s)

/-- `GOODD` (R179): `SinkOk()` is sampled once. -/
def execGoodd (data : Bytes) (s : State) : Host.Outcome State Fault Refusal :=
  .next (guarded Mnemonic.goodd.opcode (noDataAdmitted data)
    (fun t => respond Mnemonic.goodd.opcode (bitValue (t.blk.decGood && nextSinkOk t.env)) [] (sinkOk t)) s)

end Sys2Proof.Machine
end

