-- ==== Sys2Proof/Machine/System.lean ====
section
/-! DEFINITION. The system commands `NOP` and `RDREG` (R250, R251). Neither tests `CFG_OK`. -/

namespace Sys2Proof.Machine

/-- `NOP` (R250). -/
def execNop (data : Bytes) (s : State) : Host.Outcome State Fault Refusal :=
  .next (lengthGuarded Mnemonic.nop.opcode (noDataAdmitted data)
    (respond Mnemonic.nop.opcode 0#64 []) s)

/-- `RDREG r` (R251): the register number is checked before the data length (R267). -/
def execRdreg (r : BitVec 8) (data : Bytes) (s : State) : Host.Outcome State Fault Refusal :=
  .next
    (match regRead s.blk r with
     | none => raise .illegalCommand Mnemonic.rdreg.opcode s
     | some value =>
       lengthGuarded Mnemonic.rdreg.opcode (noDataAdmitted data)
         (respond Mnemonic.rdreg.opcode value []) s)

end Sys2Proof.Machine
end

