-- ==== Sys2Proof/Machine/Dispatch.lean ====
section
/-! DEFINITION. One arm per constructor of `Instr`. -/

namespace Sys2Proof.Machine

def exec (i : Instr) (s : State) : Host.Outcome State Fault Refusal :=
  match i with
  | .nop data => Sys2Proof.Machine.execNop data s
  | .enc data => Sys2Proof.Machine.execEnc data s
  | .dec data => Sys2Proof.Machine.execDec data s
  | .rd data => Sys2Proof.Machine.execRd data s
  | .wr data => Sys2Proof.Machine.execWr data s
  | .goode data => Sys2Proof.Machine.execGoode data s
  | .goodd data => Sys2Proof.Machine.execGoodd data s
  | .accept e g sid data => Sys2Proof.Machine.execAccept e g sid data s
  | .finalize data => Sys2Proof.Machine.execFinalize data s
  | .rdreg r data => Sys2Proof.Machine.execRdreg r data s

end Sys2Proof.Machine
end

