-- ==== Sys2Proof/Machine/Port.lean ====
section
/-! DEFINITION. The command port: taking the next event (R75, R90), what a transfer that is no command
does (R98, R262), a reset that comes while a command executes (R300), and how a host hands a table word
over. -/

namespace Sys2Proof.Machine

/-- The state once the port has taken the first event of the inbox (R75). -/
def takeEvent (s : State) : State := { s with env := { s.env with inbox := s.env.inbox.tail } }

/-- A transfer that the decoder refuses: an illegal word raises `IllegalCommand`, its data discarded
(R98, R262); an over-long transfer cannot come (R61). -/
def rejectTransfer (x : Transfer) (e : DecodeError) (s : State) : Host.Outcome State Fault Refusal :=
  match e with
  | .illegalWord => .next (raise .illegalCommand (opField x.word) s)
  | .transferTooLong => .fault .transferTooLong

/-- Whether a call is a `SrcRead`. -/
def isSrcRead : Call → Bool
  | .srcRead _ _ _ => true
  | .srcOk _ | .sinkOk _ | .sinkWrite _ | .dcpPush _ _ _ => false

/-- Whether a call is a `SrcOk`. -/
def isSrcOk : Call → Bool
  | .srcOk _ => true
  | .srcRead _ _ _ | .sinkOk _ | .sinkWrite _ | .dcpPush _ _ _ => false

/-- Whether a call is a `SinkOk`. -/
def isSinkOk : Call → Bool
  | .sinkOk _ => true
  | .srcRead _ _ _ | .srcOk _ | .sinkWrite _ | .dcpPush _ _ _ => false

/-- Whether a call is a `DcpPush`. -/
def isDcpPush : Call → Bool
  | .dcpPush _ _ _ => true
  | .srcRead _ _ _ | .srcOk _ | .sinkOk _ | .sinkWrite _ => false

/-- The surroundings when these calls have been made, with the answers they took, and no response. -/
def worldAfterCalls (made : List Call) (env : World) : World :=
  { env with
    calls := env.calls ++ made
    srcAnswers := env.srcAnswers.drop (made.countP isSrcRead)
    srcOkAnswers := env.srcOkAnswers.drop (made.countP isSrcOk)
    sinkOkAnswers := env.sinkOkAnswers.drop (made.countP isSinkOk)
    dcpAnswers := env.dcpAnswers.drop (made.countP isDcpPush) }

/-- Reset while a command executes (R300): of the calls that the command makes in all (it would lead from
`s` to `t`) the first `made` stay done, the block is reset, and no response is given. -/
def abandon (made : Nat) (straps : Cfg) (s t : State) : State :=
  resetBlock straps
    { s with env := worldAfterCalls ((t.env.calls.drop s.env.calls.length).take made) s.env }

/-- Reset while the command executes whose outcome would be `o`. -/
def abandonCommand (made : Nat) (straps : Cfg) (s : State) (o : Host.Outcome State Fault Refusal) :
    Host.Outcome State Fault Refusal :=
  match o with
  | .next t => .next (abandon made straps s t)
  | .fault f => .fault f
  | .refused r => .refused r

/-- The host hands this transfer to the port as the very next event. -/
def offer (x : Transfer) (s : State) : State :=
  { s with env := { s.env with inbox := .command x :: s.env.inbox } }

end Sys2Proof.Machine
end

