-- ==== Sys2Proof/Machine/Step.lean ====
section
/-! DEFINITION. One step: the port takes the next event and the block executes it to completion before
the next is taken (R24, R75). -/

namespace Sys2Proof.Machine

/-- What a transfer does: a command is decoded and executed (R75, R97). -/
def runTransfer (x : Transfer) (s : State) : Host.Outcome State Fault Refusal :=
  match decode x with
  | .ok i => exec i s
  | .error e => rejectTransfer x e s

/-- With nothing waiting the block is idle and keeps all its state (R276); the reset input resets it, also
while a command executes (R300); a command is decoded and executed (R75, R97). -/
def step (s : State) : Host.Outcome State Fault Refusal :=
  match s.env.inbox with
  | [] => .next s
  | .reset straps :: _ => .next (resetBlock straps (takeEvent s))
  | .resetDuring x made straps :: _ =>
    abandonCommand made straps (takeEvent s) (runTransfer x (takeEvent s))
  | .command x :: _ => runTransfer x (takeEvent s)

/-- `s` with the command of a table word as the event that the next step takes (log 6). -/
def State.withFetchWord (s : State) (nbits w : Nat) : State := offer (transferOfTableWord nbits w) s

end Sys2Proof.Machine
end

