-- ==== Sys2Proof/Assembly.lean ====
section
/-! DEFINITION. The textual command forms and the pseudo-commands (R103, R104), as data: what a line
stands for. Machine/AssemblyText.lean reads a line from its characters. -/

namespace Sys2Proof

/-- A data operand: hexadecimal digit pairs, `zeros(n)`, or a concatenation of such (R103). -/
inductive DataOperand where
  | hex (bytes : Bytes)
  | zeros (n : Nat)
  | cat (a b : DataOperand)
deriving DecidableEq, Repr

/-- The bytes a data operand denotes (R103, R8). -/
def DataOperand.value : DataOperand → Bytes
  | .hex l => l
  | .zeros n => Sys2Proof.zeros n
  | .cat a b => a.value ++ b.value

/-- One line of a command sequence: the eleven forms of R103, then the four pseudo-commands of R104. -/
inductive AsmLine where
  | nop
  | enc (data : DataOperand)
  | dec (data : DataOperand)
  | rd
  | wr (data : DataOperand)
  | goode
  | goodd
  | accept (g sid : Id16) (data : DataOperand)
  | acceptE (g sid : Id16) (data : DataOperand)
  | finalize
  | rdreg (r : BitVec 8)
  /-- `ERASE g, s`: hand the sink a chunk known to be lost. -/
  | erase (g sid : Id16)
  /-- `RDSTATUS`: read `STATUS`. -/
  | rdstatus
  /-- `RDBAD`: read `CNT_BADCHUNK`. -/
  | rdbad
  /-- `RDPROGRESS`: read `BYTES_RECOVERED`. -/
  | rdprogress
deriving DecidableEq, Repr

/-- The command a line stands for (R103), pseudo-commands expanded (R104); `chunkSize` is C. -/
def AsmLine.command (chunkSize : Nat) : AsmLine → Instr
  | .nop => .nop []
  | .enc d => .enc d.value
  | .dec d => .dec d.value
  | .rd => .rd []
  | .wr d => .wr d.value
  | .goode => .goode []
  | .goodd => .goodd []
  | .accept g sid d => .accept false g sid d.value
  | .acceptE g sid d => .accept true g sid d.value
  | .finalize => .finalize []
  | .rdreg r => .rdreg r []
  | .erase g sid => .accept true g sid (Sys2Proof.zeros chunkSize)
  | .rdstatus => .rdreg 0x04#8 []
  | .rdbad => .rdreg 0x07#8 []
  | .rdprogress => .rdreg 0x09#8 []

/-- The transfer that encodes a line (R103). -/
def AsmLine.transfer (chunkSize : Nat) (line : AsmLine) : Transfer := encode (line.command chunkSize)

end Sys2Proof
end

