-- ==== Sys2Proof/Safety.lean ====
section
/-! DEFINITION. The terms in which the statements speak: the invariant of the block (R49), the states
after an exception, a response or flushes written out as the rules write them, and the codes and ranks
as the spec defines them, without an algorithm. -/

namespace Sys2Proof.Machine

/-! ### The invariant (R49) -/

/-- The rank of the rows of stored symbols, as the elimination finds it (R204). -/
def rowRank (k : Nat) (syms : List Symbol) : Nat := (chosenBasis k syms).basis.length

/-- What holds of an entry of `GT` between commands (R45, R49 (d), (e), R220). -/
def entryOk (cfg : Cfg) : GroupEntry → Prop
  | .collecting syms =>
    syms ≠ [] ∧ syms.length ≤ cfg.maxSymbols ∧ (syms.map Prod.fst).Nodup
      ∧ (∀ x ∈ syms, x.2.length = cfg.chunkSize)
      ∧ rowRank cfg.sourceChunks syms < cfg.sourceChunks
  | .resolved payload => payload.length = cfg.groupSize

/-- The invariant of the block between commands (R49, and R27, R36, R37, R47 for the bookkeeping). -/
structure BlockInv (b : Block) : Prop where
  /-- `CFG_OK` says whether the configuration is valid (R21, R303). -/
  cfgOk_valid : b.cfgOk = strapsValid b.cfg
  /-- The table keeps its canonical form. -/
  table_canonical : gtWf b.gt
  /-- R49 (a). -/
  keys_between : ∀ x ∈ b.gt, b.nextGroup ≤ x.1 ∧ x.1 < b.high
  /-- R49 (b). -/
  cursor_le_high : b.nextGroup ≤ b.high
  /-- R49 (b). -/
  high_le : b.high ≤ 65536
  /-- R49 (c). -/
  cursor_not_resolved : b.phase = .live → resolvedPayload b.gt b.nextGroup = none
  /-- R49 (d). -/
  table_fits : b.gt.length ≤ b.cfg.maxGroups
  /-- R49 (d), (e), R45. -/
  entries_ok : ∀ x ∈ b.gt, entryOk b.cfg x.2
  /-- R49 (f). -/
  finalized_empty : b.phase = .finalized → b.gt = [] ∧ b.nextGroup = b.high
  /-- R49 (g). -/
  bytes_recovered : b.bytesRecovered = BitVec.ofNat 64 b.cfg.groupSize * b.cntGroupsFlushed
  /-- R49 (h), R26. -/
  dec_good : b.decGood = true
  /-- R47. -/
  live_summary : b.phase = .live → b.summary = .success
  /-- R230 (c). -/
  live_flushed : b.phase = .live → b.cntGroupsFlushed = BitVec.ofNat 64 b.nextGroup
  /-- R227: the counter cannot wrap within a session. -/
  flushed_le_high : b.cntGroupsFlushed.toNat ≤ b.high
  /-- R36, R268. -/
  fault_iff_record : b.fault = b.lastErr.valid
  /-- R36, R37: nothing recorded where nothing was raised. -/
  no_fault_clear : b.fault = false → b.lastErr = ⟨.ok, 0#8, false⟩ ∧ b.cntFaults = 0#64
  /-- R261: OK is no exception. -/
  fault_code : b.fault = true → b.lastErr.code ≠ .ok
  /-- R217. -/
  no_push_fault_clear : b.dcpFault = false → b.cntDcpFault = 0#64

/-! ### Responses and the exception entry, as the rules write them -/

/-- A response with status OK (R94): `OP` in bits [63:56], 0 below it down to `DLEN` in bits [31:0]. -/
def okResponse (op : Byte) (value : Word64) (rdata : Bytes) : Response where
  rsp0 := (op.zeroExtend 64 <<< 56) ||| BitVec.ofNat 64 rdata.length
  rsp1 := value
  rdata := rdata

/-- `s` with one response more. -/
def answered (r : Response) (s : State) : State :=
  { s with env := { s.env with outbox := s.env.outbox ++ [r] } }

/-- The status codes of R261. -/
def codeNumber : Status → Nat
  | .ok => 0
  | .invalidInput => 1
  | .illegalCommand => 2
  | .cfgInvalid => 3

/-- The state after the exception entry of R268 for a command word whose bits [63:56] are `op`. -/
def faulted (x : Status) (op : Byte) (s : State) : State where
  blk := { s.blk with
    fault := true
    cntFaults := s.blk.cntFaults + 1#64
    lastErr := ⟨x, op, true⟩ }
  env := { s.env with
    outbox := s.env.outbox
      ++ [⟨(op.zeroExtend 64 <<< 56) ||| (BitVec.ofNat 64 (codeNumber x) <<< 48), 0#64, []⟩] }

/-- Check 2 of R267: `RDREG` of a register above 0x0E. -/
def namesMissingRegister : Instr → Bool
  | .rdreg r _ => decide (0x0E < r.toNat)
  | .nop _ | .enc _ | .dec _ | .rd _ | .wr _ | .goode _ | .goodd _ | .accept _ _ _ _ | .finalize _ => false

/-- The two commands that do not test `CFG_OK` (R263). -/
def runsUnconfigured : Instr → Bool
  | .nop _ | .rdreg _ _ => true
  | .enc _ | .dec _ | .rd _ | .wr _ | .goode _ | .goodd _ | .accept _ _ _ _ | .finalize _ => false

/-- The lengths a command admits (R70, R264). -/
def admitsLength (cfg : Cfg) : Instr → Prop
  | .enc d => cfg.parity = 0 ∨ d.length ≤ cfg.bufferSize - cfg.parity
  | .dec d | .wr d => cfg.parity = 0 ∨ d.length = cfg.bufferSize
  | .accept _ _ _ d => d.length = cfg.chunkSize
  | .nop d | .rd d | .goode d | .goodd d | .finalize d | .rdreg _ d => d.length = 0

/-- The exception that a command raises, by the first check of R267 that fails (the word itself has
already selected a row); none where it executes. -/
def FirstFailure (i : Instr) (b : Block) : Option Status → Prop
  | some .illegalCommand => namesMissingRegister i = true
  | some .cfgInvalid =>
    namesMissingRegister i = false ∧ runsUnconfigured i = false ∧ b.cfgOk = false
  | some .invalidInput =>
    namesMissingRegister i = false ∧ (runsUnconfigured i = true ∨ b.cfgOk = true)
      ∧ ¬ admitsLength b.cfg i
  | some .ok => False
  | none =>
    namesMissingRegister i = false ∧ (runsUnconfigured i = true ∨ b.cfgOk = true)
      ∧ admitsLength b.cfg i

/-! ### Calls and flushes, as the rules write them -/

/-- The pushes among calls, as (offset, bytes) (R65). -/
def pushesOf (calls : List Call) : List (Nat × Bytes) :=
  calls.filterMap fun
    | .dcpPush offset bytes _ => some (offset, bytes)
    | .srcRead _ _ _ => none
    | .srcOk _ => none
    | .sinkOk _ => none
    | .sinkWrite _ => none

/-- A call without what the stage answered to it: the fault bit of a `DcpPush` is set to 0 (R65). -/
def withoutPushAnswer : Call → Call
  | .dcpPush offset bytes _ => .dcpPush offset bytes false
  | .srcRead n count bytes => .srcRead n count bytes
  | .srcOk good => .srcOk good
  | .sinkOk good => .sinkOk good
  | .sinkWrite bytes => .sinkWrite bytes

/-- The bytes appended to the sink by calls (R63). -/
def sinkBytesOf (calls : List Call) : Bytes :=
  calls.flatMap fun
    | .sinkWrite bytes => bytes
    | .srcRead _ _ _ => []
    | .srcOk _ => []
    | .sinkOk _ => []
    | .dcpPush _ _ _ => []

/-- The answers of the next n `DcpPush` calls, where no other primitive is called between them (R79). -/
def pushAnswers (env : World) (n : Nat) : List Bool :=
  (List.range n).map fun i =>
    (env.dcpAnswers.drop i).headD (Config.freeDcpFault (env.calls.length + i))

/-- The state after `flush` of these groups with their payloads, one after the other (R215, R217). -/
def afterFlushes (groups : List (Nat × Bytes)) (s : State) : State where
  blk := { s.blk with
    dcpFault := s.blk.dcpFault || (pushAnswers s.env groups.length).any id
    cntDcpFault := s.blk.cntDcpFault
      + BitVec.ofNat 64 ((pushAnswers s.env groups.length).count true)
    bytesRecovered := s.blk.bytesRecovered + BitVec.ofNat 64 (groups.length * s.blk.cfg.groupSize)
    cntGroupsFlushed := s.blk.cntGroupsFlushed + BitVec.ofNat 64 groups.length
    gt := s.blk.gt.filter fun x => !(groups.map Prod.fst).contains x.1 }
  env := { s.env with
    calls := s.env.calls
      ++ List.zipWith (fun x f => Call.dcpPush (x.1 * s.blk.cfg.groupSize) x.2 f) groups
          (pushAnswers s.env groups.length)
    dcpAnswers := s.env.dcpAnswers.drop groups.length }

/-- The payloads of the RESOLVED groups `first`, `first` + 1, .. up to the first that is not (R216). -/
def IsResolvedRun (gt : GroupTable) (first : Nat) (payloads : List Bytes) : Prop :=
  (∀ n : Fin payloads.length, resolvedPayload gt (first + n.val) = some payloads[n])
    ∧ resolvedPayload gt (first + payloads.length) = none

/-- Groups `first`, `first` + 1, .. with their payloads. -/
def numbered (first : Nat) (payloads : List Bytes) : List (Nat × Bytes) :=
  (List.range payloads.length).map (first + ·) |>.zip payloads

/-- The flush loop's effect for a run of RESOLVED groups at the cursor (R216). -/
def afterRun (payloads : List Bytes) (s : State) : State :=
  let t := afterFlushes (numbered s.blk.nextGroup payloads) s
  { t with blk := { t.blk with nextGroup := s.blk.nextGroup + payloads.length } }

/-- The groups `FINALIZE` flushes: RESOLVED ones from `NEXT_GROUP` to `HIGH` (R225). -/
def heldGroups (b : Block) : List (Nat × Bytes) :=
  (List.range' b.nextGroup (b.high - b.nextGroup)).filterMap fun g =>
    (resolvedPayload b.gt g).map fun payload => (g, payload)

/-- The groups `FINALIZE` reports: the others from `NEXT_GROUP` to `HIGH` (R226). -/
def lostGroups (b : Block) : List Nat :=
  (List.range' b.nextGroup (b.high - b.nextGroup)).filter fun g =>
    (resolvedPayload b.gt g).isNone

/-- The eight bytes of a 64-bit number, least significant first (R68, R105). -/
def leBytes (w : Word64) : Bytes := (List.range 8).map fun i => w.extractLsb' (8 * i) 8

/-! ### The codes, as the rules define them -/

/-- The number of positions where two words differ (R12). -/
def symbolDistance {α : Type} [DecidableEq α] (u v : List α) : Nat :=
  (List.zipWith (fun a b => decide (a ≠ b)) u v).count true

/-- W is in the code: n symbols, 0 or 1 where they are bits, and W(γ^j) = 0 for j = 1..N (R125, R145). -/
def BlockCode.Has {m : Nat} (code : BlockCode m) (w : List (BitVec m)) : Prop :=
  w.length = code.n
    ∧ (code.binary = true → ∀ x ∈ w, x = 0#m ∨ x = BitVec.ofNat m 1)
    ∧ ∀ j, 1 ≤ j → j ≤ code.roots → code.field.wordEval w (code.field.genPow j) = 0#m

/-- The bound t of the configured kind (R127, R142). -/
def codecBound (cfg : Cfg) : Nat :=
  match cfg.codecKind with
  | .rs => cfg.parity / 2
  | .bch => bchBound cfg.parity

/-- The distance of the configured kind: bytes for RS, bits of the non-pad region for BCH (R120, R145). -/
def codecDistance (cfg : Cfg) (u v : Bytes) : Nat :=
  match cfg.codecKind with
  | .rs => symbolDistance u v
  | .bch =>
    symbolDistance ((bitsOf u).take (8 * cfg.payloadSize + bchParityBits cfg.parity))
      ((bitsOf v).take (8 * cfg.payloadSize + bchParityBits cfg.parity))

/-- The set of e = i · 2^u mod 2047 for 1 ≤ i ≤ 2t: the exponents of the roots of g_t (R142). -/
def generatorRootExponents (t : Nat) : Finset Nat :=
  (Finset.Icc 1 (2 * t)).biUnion fun i => (Finset.range 11).image fun u => i * 2 ^ u % 2047

/-- A field element as a polynomial over GF(2) (R12, R121). -/
noncomputable def asPolynomial {m : Nat} (a : BitVec m) : Polynomial (ZMod 2) :=
  ∑ i ∈ Finset.range m, if a.getLsbD i then Polynomial.X ^ i else 0

/-- The defining polynomial of a field (R121, R140). -/
noncomputable def GF.modulus {m : Nat} (F : GF m) : Polynomial (ZMod 2) :=
  Polynomial.X ^ m + asPolynomial F.red

/-! ### Span, rank and reconstruction, as the rules define them -/

/-- The `xor` of the members of a list of bit vectors. -/
def xorAll (l : List Nat) : Nat := l.foldr (· ^^^ ·) 0

/-- v is the `xor` of the members of some subset of R (R204). -/
def InSpan (v : Nat) (R : List Nat) : Prop := ∃ sub, sub.Sublist R ∧ xorAll sub = v

/-- No member is in the span of the others (R204). -/
def IndependentRows (R : List Nat) : Prop := ∀ n : Fin R.length, ¬ InSpan R[n] (R.eraseIdx n.val)

/-- The rows of symbols (R202). -/
def rowsOf (k : Nat) (syms : List Symbol) : List Nat := syms.map fun x => rowOf k x.1.toNat

/-- The rank of R is n: the size of a largest subset that is independent (R204). -/
def RankIs (R : List Nat) (n : Nat) : Prop :=
  (∃ sub, sub.Sublist R ∧ IndependentRows sub ∧ sub.length = n)
    ∧ ∀ sub, sub.Sublist R → IndependentRows sub → sub.length ≤ n

/-- Step 2 of `reconstruct` (R205): J is what the pairs, taken in this order, leave chosen. -/
inductive ChosenBy (k : Nat) : List Symbol → List Symbol → Prop where
  | start : ChosenBy k [] []
  | take {l J : List Symbol} {x : Symbol} (h : ChosenBy k l J) (room : J.length < k)
      (fresh : ¬ InSpan (rowOf k x.1.toNat) (rowsOf k J)) : ChosenBy k (l ++ [x]) (J ++ [x])
  | skip {l J : List Symbol} {x : Symbol} (h : ChosenBy k l J)
      (no : k ≤ J.length ∨ InSpan (rowOf k x.1.toNat) (rowsOf k J)) : ChosenBy k (l ++ [x]) J

/-- K source chunks of C bytes each (R201, R203). -/
def IsSource (k c : Nat) (sources : List Bytes) : Prop :=
  sources.length = k ∧ ∀ x ∈ sources, x.length = c

/-- The `xor`, byte by byte, of the source chunks that the row selects (R203). -/
def IsSymbolOf (k c : Nat) (sources : List Bytes) (sid : Nat) (chunk : Bytes) : Prop :=
  chunk.length = c
    ∧ ∀ pos, pos < c →
        chunk.getD pos 0#8
          = (List.range k).foldr
              (fun i acc =>
                (if (rowOf k sid).testBit i then (sources.getD i []).getD pos 0#8 else 0#8) ^^^ acc)
              0#8

/-! ### Runs of commands -/

/-- The state after these commands, handed over one after the other; none where one stops. -/
def runCommands : List Instr → State → Option State
  | [], s => some s
  | i :: rest, s =>
    match exec i s with
    | .next t => runCommands rest t
    | .fault _ => none
    | .refused _ => none

/-- An `ACCEPT`: `E`, `GID`, `SID` and the chunk. -/
abbrev AcceptArgs := Bool × Id16 × Id16 × Bytes

/-- The command of an `ACCEPT`'s arguments. -/
def AcceptArgs.command (a : AcceptArgs) : Instr := .accept a.1 a.2.1 a.2.2.1 a.2.2.2

/-- A session on which nothing has arrived yet: valid configuration, LIVE, empty table. -/
def FreshSession (s : State) : Prop :=
  BlockInv s.blk ∧ s.blk.cfgOk = true ∧ s.blk.phase = .live ∧ s.blk.gt = [] ∧ s.blk.nextGroup = 0
    ∧ s.blk.high = 0

end Sys2Proof.Machine
end

