-- ==== Sys2Proof/Certificates/Slice0/Obligations.lean ====
section
/-! DEFINITION. The statements for the provers. -/

open Sys2Proof Sys2Proof.Machine

/-! ### Encoding -/

/-- Decode and encode agree, for every command with every operand (R91, R92, R97). -/
def Obligations.DecodeOfEncode : Prop :=
  ∀ i : Instr, i.wellFormed = true → decode (encode i) = .ok i

/-- A transfer that decodes is the encoding of what it decodes to: no bit of it is dropped, and no
reserved bit is set (R91, R92, R98). -/
def Obligations.EncodeOfDecode : Prop :=
  ∀ (x : Transfer) (i : Instr), decode x = .ok i → encode i = x ∧ i.wellFormed = true

/-- R107: the worked encodings. -/
def Obligations.WorkedEncodings : Prop :=
  (∀ data : Bytes, data.length ≤ 65535 →
    encode (.accept false 2 5 data) = ⟨0x3000000000020005#64, data⟩
      ∧ decode ⟨0x3000000000020005#64, data⟩ = .ok (.accept false 2 5 data)
      ∧ encode (.accept true 2 5 data) = ⟨0x3001000000020005#64, data⟩
      ∧ decode ⟨0x3001000000020005#64, data⟩ = .ok (.accept true 2 5 data)
      ∧ encode (.rdreg 7 data) = ⟨0x4000000000000007#64, data⟩
      ∧ decode ⟨0x4000000000000007#64, data⟩ = .ok (.rdreg 7 data)
      ∧ encode (.finalize data) = ⟨0x3100000000000000#64, data⟩
      ∧ decode ⟨0x3100000000000000#64, data⟩ = .ok (.finalize data)
      ∧ decode ⟨0x3002000000020005#64, data⟩ = .error .illegalWord
      ∧ decode ⟨0x2000000000000001#64, data⟩ = .error .illegalWord
      ∧ decode ⟨0x400000000000000F#64, data⟩ = .ok (.rdreg 0x0F data)
      ∧ ∀ s : State, exec (.rdreg 0x0F data) s = .next (faulted .illegalCommand 0x40#8 s))

/-- R104: what the pseudo-commands expand to. -/
def Obligations.PseudoCommandsExpand : Prop :=
  ∀ (c : Nat) (g sid : Id16),
    (AsmLine.erase g sid).transfer c
        = (AsmLine.acceptE g sid (.zeros c)).transfer c
      ∧ (AsmLine.erase g sid).transfer c
        = ⟨0x3001000000000000#64 ||| (g.zeroExtend 64 <<< 16) ||| sid.zeroExtend 64,
            List.replicate c 0#8⟩
      ∧ AsmLine.rdstatus.transfer c = ⟨0x4000000000000004#64, []⟩
      ∧ AsmLine.rdbad.transfer c = ⟨0x4000000000000007#64, []⟩
      ∧ AsmLine.rdprogress.transfer c = ⟨0x4000000000000009#64, []⟩

/-! ### Steps, reset and exceptions -/

/-- A step runs the decoded command: when the next event is a transfer that decodes to i, step is exec
of i at the state from whose inbox the event has been taken. -/
def Obligations.StepRunsDecodedCommand : Prop :=
  ∀ (s : State) (x : Transfer) (rest : List PortEvent) (i : Instr),
    s.env.inbox = .command x :: rest → decode x = .ok i →
    step s = exec i { s with env := { s.env with inbox := rest } }

/-- Where the machine goes on and where it stops: every command completes with a next state (R11, R270),
the model's choice being that every collaborator answers every call (R81, log 16); with nothing waiting the
block is idle and keeps all its state (R276); a step never answers refused, and it faults on an over-long
transfer alone, an input that does not exist (R61; the fault is the model's own, log 7). -/
def Obligations.OnlyOverlongTransferStops : Prop :=
  (∀ (i : Instr) (s : State), ∃ t, exec i s = .next t)
  ∧ (∀ s : State, s.env.inbox = [] → step s = .next s)
  ∧ (∀ (s : State) (r : Refusal), step s ≠ .refused r)
  ∧ ∀ (s : State) (f : Fault),
      step s = .fault f
        ↔ f = .transferTooLong
          ∧ ∃ (x : Transfer) (rest : List PortEvent), 65535 < x.data.length
              ∧ (s.env.inbox = .command x :: rest
                ∨ ∃ (made : Nat) (straps : Cfg), s.env.inbox = .resetDuring x made straps :: rest)

/-- R50: what every item of state holds after reset, whatever it held before (R301), with `CFG_OK` 1 iff
the straps are valid (R303). The collaborators are left alone (R302); that this is said of all of `World` but
the event taken, which the responses given and the answers written down are part of, is the model's choice
(log 2). -/
def Obligations.ResetSetsEveryItem : Prop :=
  ∀ (s : State) (straps : Cfg) (rest : List PortEvent),
    s.env.inbox = .reset straps :: rest →
    ∃ t, step s = .next t
      ∧ t.blk.cfg = straps
      ∧ (t.blk.cfgOk = true
          ↔ 1 ≤ straps.b.toNat ∧ straps.p.toNat < straps.b.toNat
            ∧ straps.flushPolicy = .strictInOrder
            ∧ 1 ≤ straps.c.toNat ∧ 1 ≤ straps.k.toNat
            ∧ 1 ≤ straps.gMax.toNat ∧ straps.gMax.toNat ≤ 65536
            ∧ straps.k.toNat ≤ straps.sMax.toNat ∧ straps.sMax.toNat ≤ 65536)
      ∧ t.blk.encGood = true ∧ t.blk.decGood = true
      ∧ t.blk.fault = false ∧ t.blk.lastBad = false ∧ t.blk.dcpFault = false ∧ t.blk.overflow = false
      ∧ (regRead t.blk 0x05#8) = some 0#64
      ∧ t.blk.cntDecodedOk = 0#64 ∧ t.blk.cntBadChunk = 0#64 ∧ t.blk.cntFaults = 0#64
      ∧ t.blk.bytesRecovered = 0#64 ∧ t.blk.cntGroupsFlushed = 0#64 ∧ t.blk.cntDcpFault = 0#64
      ∧ t.blk.phase = .live ∧ t.blk.summary = .success
      ∧ t.blk.nextGroup = 0 ∧ t.blk.high = 0 ∧ t.blk.gt = []
      ∧ (regRead t.blk 0x00#8) = some 0x43494D4246454331#64
      ∧ t.env = { s.env with inbox := rest }

/-- R300: a reset while a command executes abandons it without a response. What the command had already
done to the collaborators stays done, the first `made` of the calls it makes when it runs to its end, and
where it had made them all the collaborators are where the whole command leaves them; the block is reset. -/
def Obligations.ResetAbandonsCommand : Prop :=
  ∀ (s : State) (x : Transfer) (made : Nat) (straps : Cfg) (rest : List PortEvent),
    s.env.inbox = .resetDuring x made straps :: rest → x.data.length ≤ 65535 →
    ∃ (t u : State) (calls : List Call),
      step { s with env := { s.env with inbox := .command x :: rest } } = .next u
      ∧ u.env.calls = s.env.calls ++ calls
      ∧ step s = .next t
      ∧ t.blk = Block.afterReset straps (strapsValid straps)
      ∧ t.env.calls = s.env.calls ++ calls.take made
      ∧ t.env.outbox = s.env.outbox ∧ t.env.inbox = rest
      ∧ (calls.length ≤ made → t.env = { u.env with outbox := s.env.outbox })

/-- R262: a word that selects no row, and `RDREG` of a register above 0x0E, raise `IllegalCommand`; the
data is discarded. -/
def Obligations.IllegalCommandIsRaised : Prop :=
  (∀ (s : State) (w : Word64) (data : Bytes) (rest : List PortEvent),
    s.env.inbox = .command ⟨w, data⟩ :: rest → data.length ≤ 65535 →
    w ≠ 0x0000000000000000#64 → w ≠ 0x1000000000000000#64 → w ≠ 0x1100000000000000#64 →
    w ≠ 0x2000000000000000#64 → w ≠ 0x2100000000000000#64 → w ≠ 0x2200000000000000#64 →
    w ≠ 0x2300000000000000#64 → w &&& 0xFFFEFFFF00000000#64 ≠ 0x3000000000000000#64 →
    w ≠ 0x3100000000000000#64 → w &&& 0xFFFFFFFFFFFFFF00#64 ≠ 0x4000000000000000#64 →
    step s = .next (faulted .illegalCommand (w.extractLsb' 56 8)
      { s with env := { s.env with inbox := rest } }))
  ∧ ∀ (s : State) (r : BitVec 8) (data : Bytes), 0x0E < r.toNat →
      exec (.rdreg r data) s = .next (faulted .illegalCommand 0x40#8 s)

/-- The first check that fails decides the exception, and the exception's only effect is the fault
bookkeeping and the response (R263, R264, R267, R268, R269). -/
def Obligations.FirstFailingCheckRaises : Prop :=
  ∀ (i : Instr) (s : State) (x : Status), FirstFailure i s.blk (some x) →
    exec i s = .next (faulted x (i.word.extractLsb' 56 8) s)

/-- A command that passes the checks raises nothing: it answers with status OK and leaves `FAULT`,
`LASTERR` and `CNT_FAULTS` alone (R265, R267). -/
def Obligations.PassedChecksRaiseNothing : Prop :=
  ∀ (i : Instr) (s : State), FirstFailure i s.blk none →
    ∃ t r, exec i s = .next t
      ∧ t.env.outbox = s.env.outbox ++ [r]
      ∧ r.rsp0.extractLsb' 48 8 = 0#8
      ∧ r.rsp0.extractLsb' 56 8 = i.word.extractLsb' 56 8
      ∧ t.blk.fault = s.blk.fault ∧ t.blk.lastErr = s.blk.lastErr
      ∧ t.blk.cntFaults = s.blk.cntFaults

/-- R93, R94: every command, legal or not, is answered by exactly one response of the layout given. -/
def Obligations.OneResponsePerCommand : Prop :=
  ∀ (s : State) (x : Transfer) (rest : List PortEvent),
    BlockInv s.blk → s.env.inbox = .command x :: rest → x.data.length ≤ 65535 →
    ∃ t r, step s = .next t
      ∧ t.env.inbox = rest
      ∧ t.env.outbox = s.env.outbox ++ [r]
      ∧ r.rsp0.extractLsb' 56 8 = x.word.extractLsb' 56 8
      ∧ (∃ status : Status, r.rsp0.extractLsb' 48 8 = BitVec.ofNat 8 (codeNumber status))
      ∧ r.rsp0.extractLsb' 32 16 = 0#16
      ∧ (r.rsp0.extractLsb' 0 32).toNat = r.rdata.length
      ∧ (r.rsp0.extractLsb' 48 8 ≠ 0#8 → r.rsp1 = 0#64 ∧ r.rdata = [])

/-! ### The system commands -/

/-- R250: `NOP`, whatever the state. -/
def Obligations.NopOnlyAnswers : Prop :=
  (∀ s : State, exec (.nop []) s = .next (answered (okResponse 0x00#8 0#64 []) s))
  ∧ ∀ (s : State) (data : Bytes), data ≠ [] →
      exec (.nop data) s = .next (faulted .invalidInput 0x00#8 s)

/-- R251: `RDREG`, whatever the state. -/
def Obligations.RdregReturnsRegister : Prop :=
  (∀ (s : State) (r : BitVec 8), r.toNat ≤ 0x0E →
    ∃ v, regRead s.blk r = some v
      ∧ exec (.rdreg r []) s = .next (answered (okResponse 0x40#8 v []) s))
  ∧ (∀ (s : State) (r : BitVec 8) (data : Bytes), 0x0E < r.toNat →
      exec (.rdreg r data) s = .next (faulted .illegalCommand 0x40#8 s))
  ∧ ∀ (s : State) (r : BitVec 8) (data : Bytes), r.toNat ≤ 0x0E → data ≠ [] →
      exec (.rdreg r data) s = .next (faulted .invalidInput 0x40#8 s)

/-- The constant and configuration registers, field by field (R32 to R35). -/
def Obligations.ConfigurationRegisters : Prop :=
  ∀ b : Block,
    regRead b 0x00#8 = some 0x43494D4246454331#64
    ∧ (∃ w, regRead b 0x01#8 = some w
        ∧ w.extractLsb' 0 8 = b.cfg.b ∧ w.extractLsb' 8 8 = b.cfg.p
        ∧ (w.getLsbD 16 = true ↔ b.cfg.codecKind = .bch)
        ∧ (w.getLsbD 17 = true ↔ b.cfg.flushPolicy = .reserved)
        ∧ w.extractLsb' 18 46 = 0#46)
    ∧ (∃ w, regRead b 0x02#8 = some w
        ∧ w.extractLsb' 0 16 = b.cfg.c ∧ w.extractLsb' 16 16 = b.cfg.k ∧ w.extractLsb' 32 32 = 0#32)
    ∧ (∃ w, regRead b 0x03#8 = some w
        ∧ w.extractLsb' 0 17 = b.cfg.gMax ∧ w.extractLsb' 17 15 = 0#15
        ∧ w.extractLsb' 32 17 = b.cfg.sMax ∧ w.extractLsb' 49 15 = 0#15)

/-- `STATUS` and `LASTERR`, field by field (R36, R38). -/
def Obligations.StatusRegisters : Prop :=
  ∀ b : Block,
    (∃ w, regRead b 0x04#8 = some w
        ∧ w.getLsbD 0 = b.cfgOk ∧ w.getLsbD 1 = b.encGood ∧ w.getLsbD 2 = b.decGood
        ∧ (w.getLsbD 3 = true ↔ b.phase = .finalized)
        ∧ w.getLsbD 4 = b.fault ∧ w.getLsbD 5 = b.lastBad ∧ w.getLsbD 6 = b.dcpFault
        ∧ w.getLsbD 7 = b.overflow
        ∧ (b.summary = .success → w.extractLsb' 8 2 = 0#2)
        ∧ (b.summary = .partialLoss → w.extractLsb' 8 2 = 1#2)
        ∧ (b.summary = .failure → w.extractLsb' 8 2 = 2#2)
        ∧ w.extractLsb' 10 54 = 0#54)
    ∧ (∃ w, regRead b 0x05#8 = some w
        ∧ w.extractLsb' 0 8 = BitVec.ofNat 8 (codeNumber b.lastErr.code)
        ∧ w.extractLsb' 8 8 = b.lastErr.op ∧ w.getLsbD 16 = b.lastErr.valid
        ∧ w.extractLsb' 17 47 = 0#47)

/-- The counters, the cursors and the occupancy register (R37, R39, R42). -/
def Obligations.CounterAndCursorRegisters : Prop :=
  ∀ b : Block, BlockInv b →
    regRead b 0x06#8 = some b.cntDecodedOk ∧ regRead b 0x07#8 = some b.cntBadChunk
    ∧ regRead b 0x08#8 = some b.cntFaults ∧ regRead b 0x09#8 = some b.bytesRecovered
    ∧ regRead b 0x0A#8 = some b.cntGroupsFlushed ∧ regRead b 0x0B#8 = some b.cntDcpFault
    ∧ regRead b 0x0C#8 = some (BitVec.ofNat 64 b.nextGroup)
    ∧ regRead b 0x0D#8 = some (BitVec.ofNat 64 b.high)
    ∧ (∃ w, regRead b 0x0E#8 = some w
        ∧ (w.extractLsb' 0 17).toNat = b.gt.length ∧ w.extractLsb' 17 15 = 0#15
        ∧ (w.extractLsb' 32 17).toNat
            = (b.gt.filter fun x => (resolvedPayload b.gt x.1).isSome).length
        ∧ w.extractLsb' 49 15 = 0#15)

/-! ### The codec commands -/

/-- R150: `ENC`. -/
def Obligations.EncReturnsCodeword : Prop :=
  (∀ (s : State) (data : Bytes), BlockInv s.blk → s.blk.cfgOk = true → data.length ≤ 65535 →
    (s.blk.cfg.parity = 0 ∨ data.length ≤ s.blk.cfg.bufferSize - s.blk.cfg.parity) →
    exec (.enc data) s
      = .next (answered
          (okResponse 0x10#8 (BitVec.ofNat 64 (codecEncode s.blk.cfg data).length)
            (codecEncode s.blk.cfg data)) s))
  ∧ (∀ (s : State) (data : Bytes), s.blk.cfgOk = false →
      exec (.enc data) s = .next (faulted .cfgInvalid 0x10#8 s))
  ∧ ∀ (s : State) (data : Bytes), s.blk.cfgOk = true → s.blk.cfg.parity ≠ 0 →
      s.blk.cfg.bufferSize - s.blk.cfg.parity < data.length →
      exec (.enc data) s = .next (faulted .invalidInput 0x10#8 s)

/-- R151: `DEC`. A decode failure is no exception. -/
def Obligations.DecReturnsPayloadOrFailure : Prop :=
  (∀ (s : State) (data payload : Bytes), BlockInv s.blk → s.blk.cfgOk = true → data.length ≤ 65535 →
    (s.blk.cfg.parity = 0 ∨ data.length = s.blk.cfg.bufferSize) →
    codecDecode s.blk.cfg data = some payload →
    exec (.dec data) s = .next (answered (okResponse 0x11#8 1#64 payload) s))
  ∧ (∀ (s : State) (data : Bytes), s.blk.cfgOk = true →
      (s.blk.cfg.parity = 0 ∨ data.length = s.blk.cfg.bufferSize) →
      codecDecode s.blk.cfg data = none →
      exec (.dec data) s = .next (answered (okResponse 0x11#8 0#64 []) s))
  ∧ (∀ (s : State) (data : Bytes), s.blk.cfgOk = false →
      exec (.dec data) s = .next (faulted .cfgInvalid 0x11#8 s))
  ∧ ∀ (s : State) (data : Bytes), s.blk.cfgOk = true → s.blk.cfg.parity ≠ 0 →
      data.length ≠ s.blk.cfg.bufferSize →
      exec (.dec data) s = .next (faulted .invalidInput 0x11#8 s)

/-! ### The stream adapter -/

/-- What the source can answer (R62): every answer is in range, and every pair in range is an answer. -/
def Obligations.SourceAnswersCoverTheRange : Prop :=
  (∀ (n : Nat) (a : SrcAnswer),
    -32768 ≤ srcCount n a ∧ srcCount n a ≤ (n : Int)
      ∧ ((srcBytes n a).length : Int) = max (srcCount n a) 0)
  ∧ ∀ (n : Nat) (count : Int) (bytes : Bytes), -32768 ≤ count → count ≤ (n : Int) →
      (bytes.length : Int) = max count 0 →
      ∃ a, srcCount n a = count ∧ srcBytes n a = bytes

/-- R171, R172, R173: `RD` makes one `SrcRead(D)` and answers with the codeword, the bytes or the count;
end of stream clears `ENC_GOOD`. -/
def Obligations.RdPullsOnePayload : Prop :=
  (∀ s : State, BlockInv s.blk → s.blk.cfgOk = true →
    ∀ (n : Nat) (count : Int) (bytes : Bytes) (t : State),
      n = s.blk.cfg.bufferSize - s.blk.cfg.parity →
      count = srcCount n (nextSrcAnswer s.env) → bytes = srcBytes n (nextSrcAnswer s.env) →
      t = { s with env := { s.env with
              calls := s.env.calls ++ [.srcRead n count bytes]
              srcAnswers := s.env.srcAnswers.tail } } →
      (count ≤ 0 →
        exec (.rd []) s
          = .next (answered (okResponse 0x20#8 (BitVec.ofInt 64 count) [])
              { t with blk := { t.blk with encGood := false } }))
      ∧ (0 < count → s.blk.cfg.parity ≠ 0 →
        exec (.rd []) s
          = .next (answered
              (okResponse 0x20#8 (BitVec.ofNat 64 s.blk.cfg.bufferSize)
                (codecEncode s.blk.cfg bytes)) t))
      ∧ (0 < count → s.blk.cfg.parity = 0 →
        exec (.rd []) s
          = .next (answered (okResponse 0x20#8 (BitVec.ofInt 64 count) bytes) t)))
  ∧ (∀ (s : State) (data : Bytes), s.blk.cfgOk = false →
      exec (.rd data) s = .next (faulted .cfgInvalid 0x20#8 s))
  ∧ ∀ (s : State) (data : Bytes), s.blk.cfgOk = true → data ≠ [] →
      exec (.rd data) s = .next (faulted .invalidInput 0x20#8 s)

/-- R174, R175, R176: `WR` makes one `SinkWrite`, of the payload, of the BadChunk marker, or of the data
itself where P = 0. -/
def Obligations.WrWritesPayloadOrMarker : Prop :=
  (∀ (s : State) (data : Bytes), s.blk.cfgOk = true → data.length ≤ 65535 → s.blk.cfg.parity = 0 →
    exec (.wr data) s
      = .next (answered (okResponse 0x21#8 (1#64 ||| (BitVec.ofNat 64 data.length <<< 16)) [])
          { s with env := { s.env with calls := s.env.calls ++ [.sinkWrite data] } }))
  ∧ (∀ (s : State) (data payload : Bytes), s.blk.cfgOk = true → s.blk.cfg.parity ≠ 0 →
      data.length = s.blk.cfg.bufferSize → codecDecode s.blk.cfg data = some payload →
      exec (.wr data) s
        = .next (answered
            (okResponse 0x21#8
              (1#64 ||| (BitVec.ofNat 64 (s.blk.cfg.bufferSize - s.blk.cfg.parity) <<< 16)) [])
            { blk := { s.blk with cntDecodedOk := s.blk.cntDecodedOk + 1#64, lastBad := false }
              env := { s.env with calls := s.env.calls ++ [.sinkWrite payload] } }))
  ∧ (∀ (s : State) (data : Bytes), s.blk.cfgOk = true → s.blk.cfg.parity ≠ 0 →
      data.length = s.blk.cfg.bufferSize → codecDecode s.blk.cfg data = none →
      exec (.wr data) s
        = .next (answered
            (okResponse 0x21#8
              (BitVec.ofNat 64 (s.blk.cfg.bufferSize - s.blk.cfg.parity) <<< 16) [])
            { blk := { s.blk with cntBadChunk := s.blk.cntBadChunk + 1#64, lastBad := true }
              env := { s.env with
                calls := s.env.calls
                  ++ [.sinkWrite
                        (List.replicate (s.blk.cfg.bufferSize - s.blk.cfg.parity) 0#8)] } }))
  ∧ (∀ (s : State) (data : Bytes), s.blk.cfgOk = false →
      exec (.wr data) s = .next (faulted .cfgInvalid 0x21#8 s))
  ∧ ∀ (s : State) (data : Bytes), s.blk.cfgOk = true → s.blk.cfg.parity ≠ 0 →
      data.length ≠ s.blk.cfg.bufferSize →
      exec (.wr data) s = .next (faulted .invalidInput 0x21#8 s)

/-- R177, the idempotent-length law: for P > 0 every `WR` that does not raise advances the sink by
exactly D bytes, decoded or not; for P = 0 by the length of its data; one that raises by 0. -/
def Obligations.WrAdvancesSinkByFixedLength : Prop :=
  (∀ (s : State) (data : Bytes), s.blk.cfgOk = true → s.blk.cfg.parity ≠ 0 →
    data.length = s.blk.cfg.bufferSize →
    ∃ t written, exec (.wr data) s = .next t
      ∧ sinkBytesOf t.env.calls = sinkBytesOf s.env.calls ++ written
      ∧ written.length = s.blk.cfg.bufferSize - s.blk.cfg.parity)
  ∧ (∀ (s : State) (data : Bytes), s.blk.cfgOk = true → s.blk.cfg.parity = 0 →
      ∃ t written, exec (.wr data) s = .next t
        ∧ sinkBytesOf t.env.calls = sinkBytesOf s.env.calls ++ written
        ∧ written.length = data.length)
  ∧ ∀ (s : State) (data : Bytes),
      (s.blk.cfgOk = false
        ∨ (s.blk.cfg.parity ≠ 0 ∧ data.length ≠ s.blk.cfg.bufferSize)) →
      ∃ t, exec (.wr data) s = .next t ∧ sinkBytesOf t.env.calls = sinkBytesOf s.env.calls

/-- R178, R179: `GOODE` answers `ENC_GOOD` and `SrcOk()`, `GOODD` answers `DEC_GOOD` and `SinkOk()`, each
sampled once. That the one call is made also where the flag is 0 is the model's reading (log 21). -/
def Obligations.GoodeGooddSampleHealth : Prop :=
  (∀ s : State, s.blk.cfgOk = true →
    exec (.goode []) s
      = .next (answered
          (okResponse 0x22#8 (if s.blk.encGood = true ∧ nextSrcOk s.env = true then 1#64 else 0#64) [])
          { s with env := { s.env with
              calls := s.env.calls ++ [.srcOk (nextSrcOk s.env)]
              srcOkAnswers := s.env.srcOkAnswers.tail } }))
  ∧ (∀ s : State, s.blk.cfgOk = true →
    exec (.goodd []) s
      = .next (answered
          (okResponse 0x23#8 (if s.blk.decGood = true ∧ nextSinkOk s.env = true then 1#64 else 0#64) [])
          { s with env := { s.env with
              calls := s.env.calls ++ [.sinkOk (nextSinkOk s.env)]
              sinkOkAnswers := s.env.sinkOkAnswers.tail } }))
  ∧ (∀ (s : State) (data : Bytes), s.blk.cfgOk = false →
      exec (.goode data) s = .next (faulted .cfgInvalid 0x22#8 s)
        ∧ exec (.goodd data) s = .next (faulted .cfgInvalid 0x23#8 s))
  ∧ ∀ (s : State) (data : Bytes), s.blk.cfgOk = true → data ≠ [] →
      exec (.goode data) s = .next (faulted .invalidInput 0x22#8 s)
        ∧ exec (.goodd data) s = .next (faulted .invalidInput 0x23#8 s)

/-- The codec and the adapter do not depend on the sink's state: `NOP`, `ENC`, `DEC`, `RD`, `WR`, `GOODE`
and `GOODD` answer and call the same, whatever `PHASE`, `SUMMARY`, `NEXT_GROUP`, `HIGH`, `GT` and the
sink's counters are, and leave those alone (R272). -/
def Obligations.AdapterIgnoresSinkState : Prop :=
  ∀ (i : Instr) (s : State) (phase : Phase) (summary : Summary) (next high : Nat) (gt : GroupTable)
    (bytesRecovered cntFlushed cntDcp : Word64) (dcpFault overflow : Bool),
    (∀ e g sid d, i ≠ .accept e g sid d) → (∀ d, i ≠ .finalize d) → (∀ r d, i ≠ .rdreg r d) →
    ∃ t, exec i s = .next t
      ∧ exec i { s with blk := { s.blk with
            phase := phase, summary := summary, nextGroup := next, high := high, gt := gt
            bytesRecovered := bytesRecovered, cntGroupsFlushed := cntFlushed, cntDcpFault := cntDcp
            dcpFault := dcpFault, overflow := overflow } }
        = .next { t with blk := { t.blk with
            phase := phase, summary := summary, nextGroup := next, high := high, gt := gt
            bytesRecovered := bytesRecovered, cntGroupsFlushed := cntFlushed, cntDcpFault := cntDcp
            dcpFault := dcpFault, overflow := overflow } }

/-! ### The erasure reassembly sink -/

/-- R229: `ACCEPT` in the FINALIZED phase. -/
def Obligations.AcceptAfterFinalizeIsIgnored : Prop :=
  (∀ (s : State) (e : Bool) (g sid : Id16) (data : Bytes),
    s.blk.cfgOk = true → s.blk.phase = .finalized → data.length = s.blk.cfg.chunkSize →
    exec (.accept e g sid data) s = .next (answered (okResponse 0x30#8 6#64 []) s))
  ∧ ∀ (s : State) (e : Bool) (g sid : Id16) (data : Bytes),
      s.blk.cfgOk = true → s.blk.phase = .finalized → data.length ≠ s.blk.cfg.chunkSize →
      exec (.accept e g sid data) s = .next (faulted .invalidInput 0x30#8 s)

/-- R207: an erased chunk is dropped; nothing is stored and `HIGH` is not changed. -/
def Obligations.AcceptDropsErasedChunk : Prop :=
  ∀ (s : State) (g sid : Id16) (data : Bytes),
    s.blk.cfgOk = true → s.blk.phase = .live → data.length = s.blk.cfg.chunkSize →
    exec (.accept true g sid data) s = .next (answered (okResponse 0x30#8 3#64 []) s)

/-- R209: a FLUSHED or RESOLVED group takes no more symbols. -/
def Obligations.AcceptForClosedGroupIsIgnored : Prop :=
  (∀ (s : State) (g sid : Id16) (data : Bytes),
    s.blk.cfgOk = true → s.blk.phase = .live → data.length = s.blk.cfg.chunkSize →
    g.toNat < s.blk.nextGroup →
    exec (.accept false g sid data) s = .next (answered (okResponse 0x30#8 2#64 []) s))
  ∧ ∀ (s : State) (g sid : Id16) (data payload : Bytes),
      s.blk.cfgOk = true → s.blk.phase = .live → data.length = s.blk.cfg.chunkSize →
      s.blk.nextGroup ≤ g.toNat → gtGet s.blk.gt g.toNat = some (.resolved payload) →
      exec (.accept false g sid data) s
        = .next (answered (okResponse 0x30#8 7#64 [])
            { s with blk := { s.blk with high := max s.blk.high (g.toNat + 1) } })

/-- R210: a duplicate is ignored and the stored copy kept, whatever the bytes. -/
def Obligations.AcceptIgnoresDuplicate : Prop :=
  ∀ (s : State) (g sid : Id16) (data chunk : Bytes) (syms : List Symbol),
    s.blk.cfgOk = true → s.blk.phase = .live → data.length = s.blk.cfg.chunkSize →
    s.blk.nextGroup ≤ g.toNat → gtGet s.blk.gt g.toNat = some (.collecting syms) →
    (sid, chunk) ∈ syms →
    exec (.accept false g sid data) s
      = .next (answered (okResponse 0x30#8 1#64 [])
          { s with blk := { s.blk with high := max s.blk.high (g.toNat + 1) } })

/-- A chunk for which there is no room is dropped and `OVERFLOW` set: no entry for a new group (R212),
no room in the group's store (R213). -/
def Obligations.AcceptWithoutRoomIsDropped : Prop :=
  (∀ (s : State) (g sid : Id16) (data : Bytes),
    s.blk.cfgOk = true → s.blk.phase = .live → data.length = s.blk.cfg.chunkSize →
    s.blk.nextGroup ≤ g.toNat → gtGet s.blk.gt g.toNat = none →
    s.blk.cfg.maxGroups ≤ s.blk.gt.length →
    exec (.accept false g sid data) s
      = .next (answered (okResponse 0x30#8 4#64 [])
          { s with blk := { s.blk with
              high := max s.blk.high (g.toNat + 1), overflow := true } }))
  ∧ ∀ (s : State) (g sid : Id16) (data : Bytes) (syms : List Symbol),
      s.blk.cfgOk = true → s.blk.phase = .live → data.length = s.blk.cfg.chunkSize →
      s.blk.nextGroup ≤ g.toNat → gtGet s.blk.gt g.toNat = some (.collecting syms) →
      (∀ x ∈ syms, x.1 ≠ sid) → s.blk.cfg.maxSymbols ≤ syms.length →
      exec (.accept false g sid data) s
        = .next (answered (okResponse 0x30#8 5#64 [])
            { s with blk := { s.blk with
                high := max s.blk.high (g.toNat + 1), overflow := true } })

/-- `ACCEPT` of a new symbol (R211, R212, R214, R216, R220): it is stored; from K stored symbols on a
reconstruction is attempted; success makes the group RESOLVED, failure keeps it COLLECTING with all its
symbols; then every RESOLVED group at the cursor is flushed, and the response says so. -/
def Obligations.AcceptStoresAttemptsFlushes : Prop :=
  ∀ (s : State) (g sid : Id16) (data : Bytes) (syms : List Symbol) (entry : GroupEntry)
    (flags : Word64) (stored : State) (run : List Bytes),
    BlockInv s.blk → s.blk.cfgOk = true → s.blk.phase = .live →
    data.length = s.blk.cfg.chunkSize → s.blk.nextGroup ≤ g.toNat →
    (gtGet s.blk.gt g.toNat = some (.collecting syms)
      ∨ (gtGet s.blk.gt g.toNat = none ∧ syms = [] ∧ s.blk.gt.length < s.blk.cfg.maxGroups)) →
    (∀ x ∈ syms, x.1 ≠ sid) → syms.length < s.blk.cfg.maxSymbols →
    ((syms.length + 1 < s.blk.cfg.sourceChunks
        ∧ entry = .collecting (syms ++ [(sid, data)]) ∧ flags = 0x000#64)
      ∨ (s.blk.cfg.sourceChunks ≤ syms.length + 1
        ∧ reconstruct s.blk.cfg.sourceChunks s.blk.cfg.chunkSize (syms ++ [(sid, data)]) = none
        ∧ entry = .collecting (syms ++ [(sid, data)]) ∧ flags = 0x100#64)
      ∨ (s.blk.cfg.sourceChunks ≤ syms.length + 1
        ∧ ∃ payload,
            reconstruct s.blk.cfg.sourceChunks s.blk.cfg.chunkSize (syms ++ [(sid, data)])
                = some payload
              ∧ entry = .resolved payload ∧ flags = 0x300#64)) →
    stored = { s with blk := { s.blk with
                high := max s.blk.high (g.toNat + 1), gt := gtSet s.blk.gt g.toNat entry } } →
    IsResolvedRun stored.blk.gt stored.blk.nextGroup run →
    exec (.accept false g sid data) s
      = .next (answered
          (okResponse 0x30#8 (flags ||| (BitVec.ofNat 64 run.length <<< 40)) [])
          (afterRun run stored))

/-- `flush(g)`: one push of the payload at offset g · GS, its answer recorded, the counters counted up,
the entry removed (R215, R217). -/
def Obligations.FlushPushesAndRecords : Prop :=
  ∀ (g : Nat) (payload : Bytes) (s : State), flush g payload s = afterFlushes [(g, payload)] s

/-- R216: the flush loop flushes exactly the run of RESOLVED groups at the cursor, in ascending order. -/
def Obligations.FlushLoopFlushesTheRun : Prop :=
  ∀ (s : State) (run : List Bytes),
    gtWf s.blk.gt → (∀ x ∈ s.blk.gt, x.1 ≤ 65535) →
    IsResolvedRun s.blk.gt s.blk.nextGroup run →
    flushAll s = (afterRun run s, run.length)

/-- What a `DcpPush` answers changes the two fault records and nothing else: with other answers of the
stage the state after a command is the same but for `DCP_FAULT`, `CNT_DCP_FAULT`, the answers still written
down for `DcpPush`, and the answer recorded with each `DcpPush` made (R217). -/
def Obligations.PushAnswersChangeOnlyFaultRecords : Prop :=
  ∀ (i : Instr) (s : State) (answers : List Bool),
    ∃ t u, exec i s = .next t
      ∧ exec i { s with env := { s.env with dcpAnswers := answers } } = .next u
      ∧ u.blk = { t.blk with dcpFault := u.blk.dcpFault, cntDcpFault := u.blk.cntDcpFault }
      ∧ u.env.outbox = t.env.outbox
      ∧ u.env.inbox = t.env.inbox
      ∧ u.env.srcAnswers = t.env.srcAnswers
      ∧ u.env.srcOkAnswers = t.env.srcOkAnswers
      ∧ u.env.sinkOkAnswers = t.env.sinkOkAnswers
      ∧ u.env.calls.map withoutPushAnswer = t.env.calls.map withoutPushAnswer
      ∧ pushesOf u.env.calls = pushesOf t.env.calls
      ∧ u.env.calls.length = t.env.calls.length

/-- An `ACCEPT` touches no entry but its own group's and those it flushes: any other group at or above
the cursor has the entry it had (R220). -/
def Obligations.AcceptTouchesOneGroup : Prop :=
  ∀ (s : State) (e : Bool) (g sid : Id16) (data : Bytes),
    ∃ t, exec (.accept e g sid data) s = .next t
      ∧ ∀ h, h ≠ g.toNat → (h < s.blk.nextGroup ∨ t.blk.nextGroup ≤ h) →
          gtGet t.blk.gt h = gtGet s.blk.gt h

/-- `FINALIZE` in the LIVE phase (R225, R226, R227): the RESOLVED groups are flushed with their true
offsets, every other group below `HIGH` is reported by one record, the table is emptied and the session
ended. -/
def Obligations.FinalizeFlushesAndReports : Prop :=
  ∀ s : State, BlockInv s.blk → s.blk.cfgOk = true → s.blk.phase = .live →
    ∀ (held : List (Nat × Bytes)) (lost : List Nat) (summary : Summary) (code : Word64),
      held = heldGroups s.blk → lost = lostGroups s.blk →
      ((lost = [] ∧ summary = .success ∧ code = 0#64)
        ∨ (lost ≠ [] ∧ 0 < s.blk.cntGroupsFlushed.toNat + held.length
            ∧ summary = .partialLoss ∧ code = 1#64)
        ∨ (lost ≠ [] ∧ s.blk.cntGroupsFlushed.toNat + held.length = 0
            ∧ summary = .failure ∧ code = 2#64)) →
      exec (.finalize []) s
        = .next (answered
            (okResponse 0x31#8
              (BitVec.ofNat 64 lost.length ||| (code <<< 32)
                ||| (BitVec.ofNat 64 held.length <<< 40))
              (lost.flatMap fun g =>
                leBytes (BitVec.ofNat 64 (g * (s.blk.cfg.sourceChunks * s.blk.cfg.chunkSize)))
                  ++ leBytes
                      (BitVec.ofNat 64 ((g + 1) * (s.blk.cfg.sourceChunks * s.blk.cfg.chunkSize)))))
            { afterFlushes held s with
              blk := { (afterFlushes held s).blk with
                gt := []
                nextGroup := s.blk.high
                phase := .finalized
                summary := summary } })

/-- R228: `FINALIZE` in the FINALIZED phase changes nothing and answers the stored summary. -/
def Obligations.FinalizeAgainChangesNothing : Prop :=
  ∀ s : State, s.blk.cfgOk = true → s.blk.phase = .finalized →
    ∃ code : Nat,
      exec (.finalize []) s
        = .next (answered (okResponse 0x31#8 (BitVec.ofNat 64 code <<< 32) []) s)
      ∧ (code = 0 ↔ s.blk.summary = .success) ∧ (code = 1 ↔ s.blk.summary = .partialLoss)
      ∧ (code = 2 ↔ s.blk.summary = .failure)

/-! ### Whole-machine rules -/

/-- The invariant holds after every reset, with any straps (R49, R50). -/
def Obligations.InvariantHoldsAfterReset : Prop :=
  BlockInv State.reset.blk ∧ ∀ (s : State) (straps : Cfg), BlockInv (resetBlock straps s).blk

/-- Every step keeps the invariant (R49). -/
def Obligations.StepKeepsInvariant : Prop :=
  ∀ s t : State, BlockInv s.blk → step s = .next t → BlockInv t.blk

/-- No command writes the configuration (R21, R80, R314). -/
def Obligations.CommandsKeepConfiguration : Prop :=
  ∀ (i : Instr) (s : State),
    ∃ t, exec i s = .next t ∧ t.blk.cfg = s.blk.cfg ∧ t.blk.cfgOk = s.blk.cfgOk

/-- The sticky bits (R25, R26, R27, R36, R41): no command clears `FAULT`, `DCP_FAULT`, `OVERFLOW` or
`LASTERR.VALID`, sets `ENC_GOOD`, changes `DEC_GOOD`, or leads back to the LIVE phase. -/
def Obligations.CommandsKeepStickyBits : Prop :=
  ∀ (i : Instr) (s : State),
    ∃ t, exec i s = .next t
      ∧ (s.blk.fault = true → t.blk.fault = true)
      ∧ (s.blk.dcpFault = true → t.blk.dcpFault = true)
      ∧ (s.blk.overflow = true → t.blk.overflow = true)
      ∧ (s.blk.lastErr.valid = true → t.blk.lastErr.valid = true)
      ∧ (s.blk.encGood = false → t.blk.encGood = false)
      ∧ t.blk.decGood = s.blk.decGood
      ∧ (s.blk.phase = .finalized → t.blk.phase = .finalized ∧ t.blk.summary = s.blk.summary)

/-- Only `FINALIZE` leaves the LIVE phase, only `ACCEPT` moves `HIGH`, and only the two of them move the
cursor or touch `GT` (R41, R42, R43, R272). -/
def Obligations.OnlySinkCommandsChangeSink : Prop :=
  ∀ (i : Instr) (s : State),
    ∃ t, exec i s = .next t
      ∧ (t.blk.phase ≠ s.blk.phase → ∃ d, i = .finalize d)
      ∧ (t.blk.high ≠ s.blk.high → ∃ e g sid d, i = .accept e g sid d)
      ∧ (t.blk.nextGroup ≠ s.blk.nextGroup ∨ t.blk.gt ≠ s.blk.gt →
          (∃ d, i = .finalize d) ∨ ∃ e g sid d, i = .accept e g sid d)

/-- The cursor and `HIGH` never fall, and a step's pushes go, in strictly ascending order, to groups
between the old cursor and the new one, each at offset group · GS (R42, R65, R76, R216, R230 (c)). -/
def Obligations.PushesAscendBetweenCursors : Prop :=
  ∀ (i : Instr) (s : State), BlockInv s.blk →
    ∃ (t : State) (groups : List (Nat × Bytes)), exec i s = .next t
      ∧ s.blk.nextGroup ≤ t.blk.nextGroup ∧ s.blk.high ≤ t.blk.high
      ∧ pushesOf t.env.calls
          = pushesOf s.env.calls ++ groups.map (fun x => (x.1 * s.blk.cfg.groupSize, x.2))
      ∧ groups.Pairwise (fun x y => x.1 < y.1)
      ∧ (∀ x ∈ groups, s.blk.nextGroup ≤ x.1 ∧ x.1 < t.blk.nextGroup
          ∧ x.2.length = s.blk.cfg.groupSize)
      ∧ t.blk.cntGroupsFlushed = s.blk.cntGroupsFlushed + BitVec.ofNat 64 groups.length
      ∧ t.blk.bytesRecovered
          = s.blk.bytesRecovered + BitVec.ofNat 64 (groups.length * s.blk.cfg.groupSize)

/-! ### The fields and the codes -/

/-- The product of field elements is the product of polynomials over GF(2) reduced by the field's
polynomial, in both fields (R12, R121, R140). -/
def Obligations.FieldProductIsReducedPolynomialProduct : Prop :=
  (∀ a b : BitVec 8,
    gf256.modulus ∣ asPolynomial (gf256.mul a b) - asPolynomial a * asPolynomial b)
  ∧ ∀ a b : BitVec 11,
    gf2048.modulus ∣ asPolynomial (gf2048.mul a b) - asPolynomial a * asPolynomial b

/-- R122: the laws of GF(2^8) and of GF(2^11). -/
def Obligations.FieldLaws : Prop :=
  ((∀ a b c : BitVec 8,
      a ^^^ a = 0#8
      ∧ gf256.mul a b = gf256.mul b a
      ∧ gf256.mul (gf256.mul a b) c = gf256.mul a (gf256.mul b c)
      ∧ gf256.mul a (b ^^^ c) = gf256.mul a b ^^^ gf256.mul a c
      ∧ gf256.mul 0#8 a = 0#8 ∧ gf256.mul 1#8 a = a
      ∧ (a ≠ 0#8 → gf256.mul a (gf256.inv a) = 1#8 ∧ ∃ n, n < 255 ∧ gf256.genPow n = a))
    ∧ (∀ i j : Nat, gf256.mul (gf256.genPow i) (gf256.genPow j) = gf256.genPow ((i + j) % 255))
    ∧ ∀ i j : Nat, i < 255 → j < 255 → gf256.genPow i = gf256.genPow j → i = j)
  ∧ (∀ a b c : BitVec 11,
      a ^^^ a = 0#11
      ∧ gf2048.mul a b = gf2048.mul b a
      ∧ gf2048.mul (gf2048.mul a b) c = gf2048.mul a (gf2048.mul b c)
      ∧ gf2048.mul a (b ^^^ c) = gf2048.mul a b ^^^ gf2048.mul a c
      ∧ gf2048.mul 0#11 a = 0#11 ∧ gf2048.mul 1#11 a = a
      ∧ (a ≠ 0#11 → gf2048.mul a (gf2048.inv a) = 1#11 ∧ ∃ n, n < 2047 ∧ gf2048.genPow n = a))
    ∧ (∀ i j : Nat, gf2048.mul (gf2048.genPow i) (gf2048.genPow j) = gf2048.genPow ((i + j) % 2047))
    ∧ ∀ i j : Nat, i < 2047 → j < 2047 → gf2048.genPow i = gf2048.genPow j → i = j

/-- R136: with P = 0 the codec is pass-through, of either kind, for any length. -/
def Obligations.CodecPassesThroughWithoutParity : Prop :=
  ∀ (cfg : Cfg) (data : Bytes), cfg.parity = 0 →
    codecEncode cfg data = data ∧ codecDecode cfg data = some data

/-- RS `encode` gives the systematic member of RS(B, P) whose payload region is the zero-extended payload
(R124, R125, R126). -/
def Obligations.RsEncodeIsSystematicCodeword : Prop :=
  ∀ (b parity : Nat) (p : Bytes), 1 ≤ parity → parity < b → b ≤ 255 → p.length ≤ b - parity →
    (rsCode b parity).Has (rsEncode b parity p)
      ∧ (rsEncode b parity p).take (b - parity)
          = p ++ List.replicate (b - parity - p.length) 0#8

/-- BCH `encode` gives B bytes: the zero-extended payload, then parity bits that make the first n_c bits a
member of BCH(B, P), then pad bits 0 (R143, R144, R145). -/
def Obligations.BchEncodeIsSystematicCodeword : Prop :=
  ∀ (b parity : Nat) (p : Bytes), 1 ≤ parity → parity < b → b ≤ 255 → p.length ≤ b - parity →
    (bchEncode b parity p).length = b
      ∧ (bchEncode b parity p).take (b - parity)
          = p ++ List.replicate (b - parity - p.length) 0#8
      ∧ (bchCode b parity).Has
          (((bitsOf (bchEncode b parity p)).take (bchCode b parity).n).map bitSymbol)
      ∧ ∀ x ∈ (bitsOf (bchEncode b parity p)).drop (bchCode b parity).n, x = false

/-- t for BCH is the largest t with deg g_t ≤ 8P, the degree of g_t being the number of its roots, and
r_g is that degree (R142). -/
def Obligations.BchBoundIsLargest : Prop :=
  ∀ parity : Nat, 1 ≤ parity → parity ≤ 254 →
    bchParityBits parity = (generatorRootExponents (bchBound parity)).card
      ∧ bchParityBits parity ≤ 8 * parity
      ∧ ∀ t, (generatorRootExponents t).card ≤ 8 * parity → t ≤ bchBound parity

/-- Encode then decode returns the zero-extended payload, for both kinds (R120 (c), R152). -/
def Obligations.DecodeOfEncodedPayload : Prop :=
  ∀ (cfg : Cfg) (p : Bytes), strapsValid cfg = true → cfg.parity ≠ 0 →
    p.length ≤ cfg.bufferSize - cfg.parity →
    codecDecode cfg (codecEncode cfg p)
      = some (p ++ List.replicate (cfg.bufferSize - cfg.parity - p.length) 0#8)

/-- A success of `decode` is sound, for both kinds: the payload has D bytes and its codeword lies within t
of the received word (R120 (e), R128). -/
def Obligations.DecodeSuccessIsWithinBound : Prop :=
  ∀ (cfg : Cfg) (w q : Bytes), strapsValid cfg = true → cfg.parity ≠ 0 →
    w.length = cfg.bufferSize → codecDecode cfg w = some q →
    q.length = cfg.bufferSize - cfg.parity
      ∧ codecDistance cfg w (codecEncode cfg q) ≤ codecBound cfg

/-- Every word within t of a codeword decodes to that codeword's payload, for both kinds: together with
the soundness of success this says that the algorithm of R131 to R135 computes the function of R128
(R120 (d), R130 (i), R152). -/
def Obligations.DecodeCorrectsWithinBound : Prop :=
  ∀ (cfg : Cfg) (p w : Bytes), strapsValid cfg = true → cfg.parity ≠ 0 →
    p.length ≤ cfg.bufferSize - cfg.parity → w.length = cfg.bufferSize →
    codecDistance cfg w (codecEncode cfg p) ≤ codecBound cfg →
    codecDecode cfg w = some (p ++ List.replicate (cfg.bufferSize - cfg.parity - p.length) 0#8)

/-- R129: two different codewords differ in at least P + 1 bytes (RS) or 2t + 1 bits (BCH), so no word is
within t of two codewords. -/
def Obligations.CodewordsKeepTheirDistance : Prop :=
  ∀ b parity : Nat, 1 ≤ parity → parity < b → b ≤ 255 →
    (∀ u v : List (BitVec 8), (rsCode b parity).Has u → (rsCode b parity).Has v → u ≠ v →
      parity + 1 ≤ symbolDistance u v
        ∧ ∀ w : List (BitVec 8), w.length = b →
            ¬ (symbolDistance u w ≤ parity / 2 ∧ symbolDistance v w ≤ parity / 2))
    ∧ ∀ u v : List (BitVec 11), (bchCode b parity).Has u → (bchCode b parity).Has v → u ≠ v →
        2 * bchBound parity + 1 ≤ symbolDistance u v
          ∧ ∀ w : List (BitVec 11), w.length = (bchCode b parity).n →
              ¬ (symbolDistance u w ≤ bchBound parity ∧ symbolDistance v w ≤ bchBound parity)

/-! ### The erasure code -/

/-- R202: the row of a symbol, bit by bit, and that it is a non-zero vector of K bits (R204 (a)). -/
def Obligations.RowsAreNonZeroVectors : Prop :=
  ∀ k s : Nat, 1 ≤ k →
    rowOf k s ≠ 0 ∧ rowOf k s < 2 ^ k
      ∧ (s < k → ∀ i, (rowOf k s).testBit i = decide (i = s))
      ∧ (k ≤ s → ∀ i, (rowOf k s).testBit i = ((s - k) % (2 ^ k - 1) + 1).testBit i)
      ∧ (17 ≤ k → k ≤ s → s ≤ 65535 → rowOf k s = s - k + 1)

/-- R203: the symbol of id s is the `xor` of the source chunks that its row selects, byte by byte, and is
the source chunk itself for s < K. -/
def Obligations.ValidSymbolIsXorOfSources : Prop :=
  ∀ (k c s : Nat) (sources : List Bytes), 1 ≤ k → IsSource k c sources →
    IsSymbolOf k c sources s (validSymbol k c sources s)
      ∧ (s < k → validSymbol k c sources s = sources.getD s [])

/-- `reconstruct` follows its six steps (R205): with the pairs in ascending sid and the basis J they leave
chosen, it returns none where |J| < K, and else the source chunks that satisfy every equation of J. -/
def Obligations.ReconstructFollowsItsSteps : Prop :=
  ∀ (k c : Nat) (syms : List Symbol), 1 ≤ k → (syms.map Prod.fst).Nodup →
    (∀ x ∈ syms, x.2.length = c) →
    ∃ sorted J : List Symbol,
      sorted.Perm syms ∧ sorted.Pairwise (fun x y => x.1.toNat < y.1.toNat) ∧ ChosenBy k sorted J
        ∧ (J.length < k → reconstruct k c syms = none)
        ∧ (k ≤ J.length →
            ∃ sources, IsSource k c sources ∧ reconstruct k c syms = some sources.flatten
              ∧ ∀ x ∈ J, IsSymbolOf k c sources x.1.toNat x.2)

/-- `reconstruct` returns none iff the rank of the stored rows is below K (R204 (c), R205). -/
def Obligations.ReconstructFailsIffRankBelow : Prop :=
  ∀ (k c : Nat) (syms : List Symbol), 1 ≤ k →
    ∃ n, RankIs (rowsOf k syms) n ∧ n ≤ k ∧ (reconstruct k c syms = none ↔ n < k)

/-- If every stored chunk is the valid symbol of one set of source chunks, whatever is reconstructed is
exactly those source chunks in order (R205). -/
def Obligations.ReconstructRecoversSources : Prop :=
  ∀ (k c : Nat) (syms : List Symbol) (sources : List Bytes) (payload : Bytes), 1 ≤ k →
    IsSource k c sources → (∀ x ∈ syms, IsSymbolOf k c sources x.1.toNat x.2) →
    reconstruct k c syms = some payload → payload = sources.flatten

/-! ### Sessions -/

/-- R230 (b): in a session in which every chunk handed over is a valid symbol of its group, every block
pushed is the original span of its group. R230 speaks of sessions without overflow; this needs no such
premise. -/
def Obligations.SessionPushesOriginalBytes : Prop :=
  ∀ (s t : State) (chunks : List AcceptArgs) (sources : Nat → List Bytes),
    FreshSession s →
    (∀ g, IsSource s.blk.cfg.sourceChunks s.blk.cfg.chunkSize (sources g)) →
    (∀ a ∈ chunks, a.1 = false →
      IsSymbolOf s.blk.cfg.sourceChunks s.blk.cfg.chunkSize (sources a.2.1.toNat)
        a.2.2.1.toNat a.2.2.2) →
    runCommands (chunks.map AcceptArgs.command ++ [.finalize []]) s = some t →
    ∃ groups : List Nat,
      pushesOf t.env.calls
          = pushesOf s.env.calls
            ++ groups.map (fun g => (g * s.blk.cfg.groupSize, (sources g).flatten))
        ∧ groups.Pairwise (· < ·)

/-- R230 (d): the order in which the chunks of a session arrive changes neither what is pushed nor what is
reported. -/
def Obligations.ArrivalOrderDoesNotMatter : Prop :=
  ∀ (s t u : State) (chunks permuted : List AcceptArgs) (sources : Nat → List Bytes),
    FreshSession s →
    (∀ g, IsSource s.blk.cfg.sourceChunks s.blk.cfg.chunkSize (sources g)) →
    (∀ a ∈ chunks, a.2.2.2.length = s.blk.cfg.chunkSize
      ∧ (a.1 = false →
        IsSymbolOf s.blk.cfg.sourceChunks s.blk.cfg.chunkSize (sources a.2.1.toNat)
          a.2.2.1.toNat a.2.2.2)) →
    chunks.Perm permuted →
    runCommands (chunks.map AcceptArgs.command ++ [.finalize []]) s = some t →
    runCommands (permuted.map AcceptArgs.command ++ [.finalize []]) s = some u →
    t.blk.overflow = false → u.blk.overflow = false →
    pushesOf t.env.calls = pushesOf u.env.calls
      ∧ (t.env.outbox.getLast?.map Response.rdata) = (u.env.outbox.getLast?.map Response.rdata)
end

