-- ==== Sys2Proof/Laws/Decode.lean ====
section
/-! SUPPORT. What the decoder answers, said once: the rows of the opcode map are disjoint, and it finds
the row that a word selects. -/

namespace Sys2Proof

/-- Every row is in the list of rows. -/
theorem mem_all (row : Mnemonic) : row ∈ Mnemonic.all := by cases row <;> decide

/-- Two rows that one word selects agree where both masks look. -/
theorem pattern_agree {w : Word64} {a b : Mnemonic} (ha : selects w a = true)
    (hb : selects w b = true) : a.pattern &&& b.mask = b.pattern &&& a.mask := by
  have ha' : w &&& a.mask = a.pattern := by simpa [selects] using ha
  have hb' : w &&& b.mask = b.pattern := by simpa [selects] using hb
  rw [← ha', ← hb', BitVec.and_assoc, BitVec.and_assoc, BitVec.and_comm a.mask]

/-- The rows are disjoint (R97). -/
theorem selects_unique {w : Word64} {a b : Mnemonic} (ha : selects w a = true)
    (hb : selects w b = true) : a = b := by
  have h := pattern_agree ha hb
  revert h
  clear ha hb
  cases a <;> cases b <;> decide

/-- The row found first is the row selected. -/
theorem find_selected {w : Word64} {row : Mnemonic} (h : selects w row = true) :
    Mnemonic.all.find? (selects w) = some row := by
  cases hf : Mnemonic.all.find? (selects w) with
  | none => exact absurd h (List.find?_eq_none.1 hf row (mem_all row))
  | some r => rw [selects_unique (List.find?_some hf) h]

/-- Where the decoder finds a command. -/
theorem decode_of_selects {w : Word64} {data : Bytes} {row : Mnemonic} (fits : dataFits data = true)
    (h : selects w row = true) : decode ⟨w, data⟩ = .ok (assemble row w data) := by
  simp [decode, fits, find_selected h]

/-- Where the decoder finds no command. -/
theorem decode_of_no_row {w : Word64} {data : Bytes} (fits : dataFits data = true)
    (h : ∀ row, selects w row = false) : decode ⟨w, data⟩ = .error .illegalWord := by
  have : Mnemonic.all.find? (selects w) = none :=
    List.find?_eq_none.2 fun row _ => by simp [h row]
  simp [decode, fits, this]

/-- Every answer of the decoder. -/
theorem decode_cases (x : Transfer) :
    (dataFits x.data = false ∧ decode x = .error .transferTooLong)
    ∨ (dataFits x.data = true ∧ (∀ row, selects x.word row = false)
        ∧ decode x = .error .illegalWord)
    ∨ (dataFits x.data = true ∧ ∃ row, selects x.word row = true
        ∧ decode x = .ok (assemble row x.word x.data)) := by
  cases hd : dataFits x.data with
  | false => exact .inl ⟨rfl, by simp [decode, hd]⟩
  | true =>
    by_cases h : ∃ row, selects x.word row = true
    · obtain ⟨row, hr⟩ := h
      exact .inr (.inr ⟨rfl, row, hr, decode_of_selects hd hr⟩)
    · have h' : ∀ row, selects x.word row = false := fun row => by
        cases e : selects x.word row
        · rfl
        · exact absurd ⟨row, e⟩ h
      exact .inr (.inl ⟨rfl, h', decode_of_no_row hd h'⟩)

end Sys2Proof
end

