-- ==== Sys2Proof/Laws/State.lean ====
section
/-! SUPPORT. One lemma per field per update of the state, each true by definition. -/

namespace Sys2Proof.Machine

/-! ### The stream primitives, the response and the port -/

@[simp] theorem srcRead_blk (n : Nat) (s : State) :
    (srcRead n s).blk = s.blk := rfl
@[simp] theorem srcRead_inbox (n : Nat) (s : State) :
    (srcRead n s).env.inbox = s.env.inbox := rfl
@[simp] theorem srcRead_outbox (n : Nat) (s : State) :
    (srcRead n s).env.outbox = s.env.outbox := rfl
@[simp] theorem srcRead_calls (n : Nat) (s : State) :
    (srcRead n s).env.calls = s.env.calls ++ [.srcRead n (srcCount n (nextSrcAnswer s.env)) (srcBytes n (nextSrcAnswer s.env))] := rfl
@[simp] theorem srcRead_srcAnswers (n : Nat) (s : State) :
    (srcRead n s).env.srcAnswers = s.env.srcAnswers.tail := rfl
@[simp] theorem srcRead_srcOkAnswers (n : Nat) (s : State) :
    (srcRead n s).env.srcOkAnswers = s.env.srcOkAnswers := rfl
@[simp] theorem srcRead_sinkOkAnswers (n : Nat) (s : State) :
    (srcRead n s).env.sinkOkAnswers = s.env.sinkOkAnswers := rfl
@[simp] theorem srcRead_dcpAnswers (n : Nat) (s : State) :
    (srcRead n s).env.dcpAnswers = s.env.dcpAnswers := rfl
@[simp] theorem srcOk_blk (s : State) :
    (srcOk s).blk = s.blk := rfl
@[simp] theorem srcOk_inbox (s : State) :
    (srcOk s).env.inbox = s.env.inbox := rfl
@[simp] theorem srcOk_outbox (s : State) :
    (srcOk s).env.outbox = s.env.outbox := rfl
@[simp] theorem srcOk_calls (s : State) :
    (srcOk s).env.calls = s.env.calls ++ [.srcOk (nextSrcOk s.env)] := rfl
@[simp] theorem srcOk_srcAnswers (s : State) :
    (srcOk s).env.srcAnswers = s.env.srcAnswers := rfl
@[simp] theorem srcOk_srcOkAnswers (s : State) :
    (srcOk s).env.srcOkAnswers = s.env.srcOkAnswers.tail := rfl
@[simp] theorem srcOk_sinkOkAnswers (s : State) :
    (srcOk s).env.sinkOkAnswers = s.env.sinkOkAnswers := rfl
@[simp] theorem srcOk_dcpAnswers (s : State) :
    (srcOk s).env.dcpAnswers = s.env.dcpAnswers := rfl
@[simp] theorem sinkOk_blk (s : State) :
    (sinkOk s).blk = s.blk := rfl
@[simp] theorem sinkOk_inbox (s : State) :
    (sinkOk s).env.inbox = s.env.inbox := rfl
@[simp] theorem sinkOk_outbox (s : State) :
    (sinkOk s).env.outbox = s.env.outbox := rfl
@[simp] theorem sinkOk_calls (s : State) :
    (sinkOk s).env.calls = s.env.calls ++ [.sinkOk (nextSinkOk s.env)] := rfl
@[simp] theorem sinkOk_srcAnswers (s : State) :
    (sinkOk s).env.srcAnswers = s.env.srcAnswers := rfl
@[simp] theorem sinkOk_srcOkAnswers (s : State) :
    (sinkOk s).env.srcOkAnswers = s.env.srcOkAnswers := rfl
@[simp] theorem sinkOk_sinkOkAnswers (s : State) :
    (sinkOk s).env.sinkOkAnswers = s.env.sinkOkAnswers.tail := rfl
@[simp] theorem sinkOk_dcpAnswers (s : State) :
    (sinkOk s).env.dcpAnswers = s.env.dcpAnswers := rfl
@[simp] theorem sinkWrite_blk (bytes : Bytes) (s : State) :
    (sinkWrite bytes s).blk = s.blk := rfl
@[simp] theorem sinkWrite_inbox (bytes : Bytes) (s : State) :
    (sinkWrite bytes s).env.inbox = s.env.inbox := rfl
@[simp] theorem sinkWrite_outbox (bytes : Bytes) (s : State) :
    (sinkWrite bytes s).env.outbox = s.env.outbox := rfl
@[simp] theorem sinkWrite_calls (bytes : Bytes) (s : State) :
    (sinkWrite bytes s).env.calls = s.env.calls ++ [.sinkWrite bytes] := rfl
@[simp] theorem sinkWrite_srcAnswers (bytes : Bytes) (s : State) :
    (sinkWrite bytes s).env.srcAnswers = s.env.srcAnswers := rfl
@[simp] theorem sinkWrite_srcOkAnswers (bytes : Bytes) (s : State) :
    (sinkWrite bytes s).env.srcOkAnswers = s.env.srcOkAnswers := rfl
@[simp] theorem sinkWrite_sinkOkAnswers (bytes : Bytes) (s : State) :
    (sinkWrite bytes s).env.sinkOkAnswers = s.env.sinkOkAnswers := rfl
@[simp] theorem sinkWrite_dcpAnswers (bytes : Bytes) (s : State) :
    (sinkWrite bytes s).env.dcpAnswers = s.env.dcpAnswers := rfl
@[simp] theorem dcpPush_blk (offset : Nat) (bytes : Bytes) (s : State) :
    (dcpPush offset bytes s).blk = s.blk := rfl
@[simp] theorem dcpPush_inbox (offset : Nat) (bytes : Bytes) (s : State) :
    (dcpPush offset bytes s).env.inbox = s.env.inbox := rfl
@[simp] theorem dcpPush_outbox (offset : Nat) (bytes : Bytes) (s : State) :
    (dcpPush offset bytes s).env.outbox = s.env.outbox := rfl
@[simp] theorem dcpPush_calls (offset : Nat) (bytes : Bytes) (s : State) :
    (dcpPush offset bytes s).env.calls = s.env.calls ++ [.dcpPush offset bytes (nextDcpFault s.env)] := rfl
@[simp] theorem dcpPush_srcAnswers (offset : Nat) (bytes : Bytes) (s : State) :
    (dcpPush offset bytes s).env.srcAnswers = s.env.srcAnswers := rfl
@[simp] theorem dcpPush_srcOkAnswers (offset : Nat) (bytes : Bytes) (s : State) :
    (dcpPush offset bytes s).env.srcOkAnswers = s.env.srcOkAnswers := rfl
@[simp] theorem dcpPush_sinkOkAnswers (offset : Nat) (bytes : Bytes) (s : State) :
    (dcpPush offset bytes s).env.sinkOkAnswers = s.env.sinkOkAnswers := rfl
@[simp] theorem dcpPush_dcpAnswers (offset : Nat) (bytes : Bytes) (s : State) :
    (dcpPush offset bytes s).env.dcpAnswers = s.env.dcpAnswers.tail := rfl
@[simp] theorem respond_blk (op : Byte) (value : Word64) (rdata : Bytes) (s : State) :
    (respond op value rdata s).blk = s.blk := rfl
@[simp] theorem respond_inbox (op : Byte) (value : Word64) (rdata : Bytes) (s : State) :
    (respond op value rdata s).env.inbox = s.env.inbox := rfl
@[simp] theorem respond_outbox (op : Byte) (value : Word64) (rdata : Bytes) (s : State) :
    (respond op value rdata s).env.outbox = s.env.outbox ++ [⟨rsp0Word op .ok rdata.length, value, rdata⟩] := rfl
@[simp] theorem respond_calls (op : Byte) (value : Word64) (rdata : Bytes) (s : State) :
    (respond op value rdata s).env.calls = s.env.calls := rfl
@[simp] theorem respond_srcAnswers (op : Byte) (value : Word64) (rdata : Bytes) (s : State) :
    (respond op value rdata s).env.srcAnswers = s.env.srcAnswers := rfl
@[simp] theorem respond_srcOkAnswers (op : Byte) (value : Word64) (rdata : Bytes) (s : State) :
    (respond op value rdata s).env.srcOkAnswers = s.env.srcOkAnswers := rfl
@[simp] theorem respond_sinkOkAnswers (op : Byte) (value : Word64) (rdata : Bytes) (s : State) :
    (respond op value rdata s).env.sinkOkAnswers = s.env.sinkOkAnswers := rfl
@[simp] theorem respond_dcpAnswers (op : Byte) (value : Word64) (rdata : Bytes) (s : State) :
    (respond op value rdata s).env.dcpAnswers = s.env.dcpAnswers := rfl
@[simp] theorem takeEvent_blk (s : State) :
    (takeEvent s).blk = s.blk := rfl
@[simp] theorem takeEvent_inbox (s : State) :
    (takeEvent s).env.inbox = s.env.inbox.tail := rfl
@[simp] theorem takeEvent_outbox (s : State) :
    (takeEvent s).env.outbox = s.env.outbox := rfl
@[simp] theorem takeEvent_calls (s : State) :
    (takeEvent s).env.calls = s.env.calls := rfl
@[simp] theorem takeEvent_srcAnswers (s : State) :
    (takeEvent s).env.srcAnswers = s.env.srcAnswers := rfl
@[simp] theorem takeEvent_srcOkAnswers (s : State) :
    (takeEvent s).env.srcOkAnswers = s.env.srcOkAnswers := rfl
@[simp] theorem takeEvent_sinkOkAnswers (s : State) :
    (takeEvent s).env.sinkOkAnswers = s.env.sinkOkAnswers := rfl
@[simp] theorem takeEvent_dcpAnswers (s : State) :
    (takeEvent s).env.dcpAnswers = s.env.dcpAnswers := rfl
@[simp] theorem offer_blk (x : Transfer) (s : State) :
    (offer x s).blk = s.blk := rfl
@[simp] theorem offer_inbox (x : Transfer) (s : State) :
    (offer x s).env.inbox = .command x :: s.env.inbox := rfl
@[simp] theorem offer_outbox (x : Transfer) (s : State) :
    (offer x s).env.outbox = s.env.outbox := rfl
@[simp] theorem offer_calls (x : Transfer) (s : State) :
    (offer x s).env.calls = s.env.calls := rfl
@[simp] theorem offer_srcAnswers (x : Transfer) (s : State) :
    (offer x s).env.srcAnswers = s.env.srcAnswers := rfl
@[simp] theorem offer_srcOkAnswers (x : Transfer) (s : State) :
    (offer x s).env.srcOkAnswers = s.env.srcOkAnswers := rfl
@[simp] theorem offer_sinkOkAnswers (x : Transfer) (s : State) :
    (offer x s).env.sinkOkAnswers = s.env.sinkOkAnswers := rfl
@[simp] theorem offer_dcpAnswers (x : Transfer) (s : State) :
    (offer x s).env.dcpAnswers = s.env.dcpAnswers := rfl

/-! ### The exception entry and reset -/

@[simp] theorem raise_cfg (x : Status) (op : Byte) (s : State) :
    (raise x op s).blk.cfg = s.blk.cfg := rfl
@[simp] theorem raise_cfgOk (x : Status) (op : Byte) (s : State) :
    (raise x op s).blk.cfgOk = s.blk.cfgOk := rfl
@[simp] theorem raise_encGood (x : Status) (op : Byte) (s : State) :
    (raise x op s).blk.encGood = s.blk.encGood := rfl
@[simp] theorem raise_decGood (x : Status) (op : Byte) (s : State) :
    (raise x op s).blk.decGood = s.blk.decGood := rfl
@[simp] theorem raise_fault (x : Status) (op : Byte) (s : State) :
    (raise x op s).blk.fault = true := rfl
@[simp] theorem raise_lastBad (x : Status) (op : Byte) (s : State) :
    (raise x op s).blk.lastBad = s.blk.lastBad := rfl
@[simp] theorem raise_dcpFault (x : Status) (op : Byte) (s : State) :
    (raise x op s).blk.dcpFault = s.blk.dcpFault := rfl
@[simp] theorem raise_overflow (x : Status) (op : Byte) (s : State) :
    (raise x op s).blk.overflow = s.blk.overflow := rfl
@[simp] theorem raise_lastErr (x : Status) (op : Byte) (s : State) :
    (raise x op s).blk.lastErr = ⟨x, op, true⟩ := rfl
@[simp] theorem raise_cntDecodedOk (x : Status) (op : Byte) (s : State) :
    (raise x op s).blk.cntDecodedOk = s.blk.cntDecodedOk := rfl
@[simp] theorem raise_cntBadChunk (x : Status) (op : Byte) (s : State) :
    (raise x op s).blk.cntBadChunk = s.blk.cntBadChunk := rfl
@[simp] theorem raise_cntFaults (x : Status) (op : Byte) (s : State) :
    (raise x op s).blk.cntFaults = s.blk.cntFaults + 1#64 := rfl
@[simp] theorem raise_bytesRecovered (x : Status) (op : Byte) (s : State) :
    (raise x op s).blk.bytesRecovered = s.blk.bytesRecovered := rfl
@[simp] theorem raise_cntGroupsFlushed (x : Status) (op : Byte) (s : State) :
    (raise x op s).blk.cntGroupsFlushed = s.blk.cntGroupsFlushed := rfl
@[simp] theorem raise_cntDcpFault (x : Status) (op : Byte) (s : State) :
    (raise x op s).blk.cntDcpFault = s.blk.cntDcpFault := rfl
@[simp] theorem raise_phase (x : Status) (op : Byte) (s : State) :
    (raise x op s).blk.phase = s.blk.phase := rfl
@[simp] theorem raise_summary (x : Status) (op : Byte) (s : State) :
    (raise x op s).blk.summary = s.blk.summary := rfl
@[simp] theorem raise_nextGroup (x : Status) (op : Byte) (s : State) :
    (raise x op s).blk.nextGroup = s.blk.nextGroup := rfl
@[simp] theorem raise_high (x : Status) (op : Byte) (s : State) :
    (raise x op s).blk.high = s.blk.high := rfl
@[simp] theorem raise_gt (x : Status) (op : Byte) (s : State) :
    (raise x op s).blk.gt = s.blk.gt := rfl
@[simp] theorem raise_inbox (x : Status) (op : Byte) (s : State) :
    (raise x op s).env.inbox = s.env.inbox := rfl
@[simp] theorem raise_outbox (x : Status) (op : Byte) (s : State) :
    (raise x op s).env.outbox = s.env.outbox ++ [⟨rsp0Word op x 0, 0#64, []⟩] := rfl
@[simp] theorem raise_calls (x : Status) (op : Byte) (s : State) :
    (raise x op s).env.calls = s.env.calls := rfl
@[simp] theorem raise_srcAnswers (x : Status) (op : Byte) (s : State) :
    (raise x op s).env.srcAnswers = s.env.srcAnswers := rfl
@[simp] theorem raise_srcOkAnswers (x : Status) (op : Byte) (s : State) :
    (raise x op s).env.srcOkAnswers = s.env.srcOkAnswers := rfl
@[simp] theorem raise_sinkOkAnswers (x : Status) (op : Byte) (s : State) :
    (raise x op s).env.sinkOkAnswers = s.env.sinkOkAnswers := rfl
@[simp] theorem raise_dcpAnswers (x : Status) (op : Byte) (s : State) :
    (raise x op s).env.dcpAnswers = s.env.dcpAnswers := rfl
@[simp] theorem resetBlock_blk (straps : Cfg) (s : State) :
    (resetBlock straps s).blk = Block.afterReset straps (strapsValid straps) := rfl
@[simp] theorem resetBlock_env (straps : Cfg) (s : State) :
    (resetBlock straps s).env = s.env := rfl

/-! ### The stream adapter -/

@[simp] theorem clearEncGood_cfg (s : State) :
    (clearEncGood s).blk.cfg = s.blk.cfg := rfl
@[simp] theorem clearEncGood_cfgOk (s : State) :
    (clearEncGood s).blk.cfgOk = s.blk.cfgOk := rfl
@[simp] theorem clearEncGood_encGood (s : State) :
    (clearEncGood s).blk.encGood = false := rfl
@[simp] theorem clearEncGood_decGood (s : State) :
    (clearEncGood s).blk.decGood = s.blk.decGood := rfl
@[simp] theorem clearEncGood_fault (s : State) :
    (clearEncGood s).blk.fault = s.blk.fault := rfl
@[simp] theorem clearEncGood_lastBad (s : State) :
    (clearEncGood s).blk.lastBad = s.blk.lastBad := rfl
@[simp] theorem clearEncGood_dcpFault (s : State) :
    (clearEncGood s).blk.dcpFault = s.blk.dcpFault := rfl
@[simp] theorem clearEncGood_overflow (s : State) :
    (clearEncGood s).blk.overflow = s.blk.overflow := rfl
@[simp] theorem clearEncGood_lastErr (s : State) :
    (clearEncGood s).blk.lastErr = s.blk.lastErr := rfl
@[simp] theorem clearEncGood_cntDecodedOk (s : State) :
    (clearEncGood s).blk.cntDecodedOk = s.blk.cntDecodedOk := rfl
@[simp] theorem clearEncGood_cntBadChunk (s : State) :
    (clearEncGood s).blk.cntBadChunk = s.blk.cntBadChunk := rfl
@[simp] theorem clearEncGood_cntFaults (s : State) :
    (clearEncGood s).blk.cntFaults = s.blk.cntFaults := rfl
@[simp] theorem clearEncGood_bytesRecovered (s : State) :
    (clearEncGood s).blk.bytesRecovered = s.blk.bytesRecovered := rfl
@[simp] theorem clearEncGood_cntGroupsFlushed (s : State) :
    (clearEncGood s).blk.cntGroupsFlushed = s.blk.cntGroupsFlushed := rfl
@[simp] theorem clearEncGood_cntDcpFault (s : State) :
    (clearEncGood s).blk.cntDcpFault = s.blk.cntDcpFault := rfl
@[simp] theorem clearEncGood_phase (s : State) :
    (clearEncGood s).blk.phase = s.blk.phase := rfl
@[simp] theorem clearEncGood_summary (s : State) :
    (clearEncGood s).blk.summary = s.blk.summary := rfl
@[simp] theorem clearEncGood_nextGroup (s : State) :
    (clearEncGood s).blk.nextGroup = s.blk.nextGroup := rfl
@[simp] theorem clearEncGood_high (s : State) :
    (clearEncGood s).blk.high = s.blk.high := rfl
@[simp] theorem clearEncGood_gt (s : State) :
    (clearEncGood s).blk.gt = s.blk.gt := rfl
@[simp] theorem clearEncGood_env (s : State) :
    (clearEncGood s).env = s.env := rfl
@[simp] theorem recordDecoded_cfg (s : State) :
    (recordDecoded s).blk.cfg = s.blk.cfg := rfl
@[simp] theorem recordDecoded_cfgOk (s : State) :
    (recordDecoded s).blk.cfgOk = s.blk.cfgOk := rfl
@[simp] theorem recordDecoded_encGood (s : State) :
    (recordDecoded s).blk.encGood = s.blk.encGood := rfl
@[simp] theorem recordDecoded_decGood (s : State) :
    (recordDecoded s).blk.decGood = s.blk.decGood := rfl
@[simp] theorem recordDecoded_fault (s : State) :
    (recordDecoded s).blk.fault = s.blk.fault := rfl
@[simp] theorem recordDecoded_lastBad (s : State) :
    (recordDecoded s).blk.lastBad = false := rfl
@[simp] theorem recordDecoded_dcpFault (s : State) :
    (recordDecoded s).blk.dcpFault = s.blk.dcpFault := rfl
@[simp] theorem recordDecoded_overflow (s : State) :
    (recordDecoded s).blk.overflow = s.blk.overflow := rfl
@[simp] theorem recordDecoded_lastErr (s : State) :
    (recordDecoded s).blk.lastErr = s.blk.lastErr := rfl
@[simp] theorem recordDecoded_cntDecodedOk (s : State) :
    (recordDecoded s).blk.cntDecodedOk = s.blk.cntDecodedOk + 1#64 := rfl
@[simp] theorem recordDecoded_cntBadChunk (s : State) :
    (recordDecoded s).blk.cntBadChunk = s.blk.cntBadChunk := rfl
@[simp] theorem recordDecoded_cntFaults (s : State) :
    (recordDecoded s).blk.cntFaults = s.blk.cntFaults := rfl
@[simp] theorem recordDecoded_bytesRecovered (s : State) :
    (recordDecoded s).blk.bytesRecovered = s.blk.bytesRecovered := rfl
@[simp] theorem recordDecoded_cntGroupsFlushed (s : State) :
    (recordDecoded s).blk.cntGroupsFlushed = s.blk.cntGroupsFlushed := rfl
@[simp] theorem recordDecoded_cntDcpFault (s : State) :
    (recordDecoded s).blk.cntDcpFault = s.blk.cntDcpFault := rfl
@[simp] theorem recordDecoded_phase (s : State) :
    (recordDecoded s).blk.phase = s.blk.phase := rfl
@[simp] theorem recordDecoded_summary (s : State) :
    (recordDecoded s).blk.summary = s.blk.summary := rfl
@[simp] theorem recordDecoded_nextGroup (s : State) :
    (recordDecoded s).blk.nextGroup = s.blk.nextGroup := rfl
@[simp] theorem recordDecoded_high (s : State) :
    (recordDecoded s).blk.high = s.blk.high := rfl
@[simp] theorem recordDecoded_gt (s : State) :
    (recordDecoded s).blk.gt = s.blk.gt := rfl
@[simp] theorem recordDecoded_env (s : State) :
    (recordDecoded s).env = s.env := rfl
@[simp] theorem recordBadChunk_cfg (s : State) :
    (recordBadChunk s).blk.cfg = s.blk.cfg := rfl
@[simp] theorem recordBadChunk_cfgOk (s : State) :
    (recordBadChunk s).blk.cfgOk = s.blk.cfgOk := rfl
@[simp] theorem recordBadChunk_encGood (s : State) :
    (recordBadChunk s).blk.encGood = s.blk.encGood := rfl
@[simp] theorem recordBadChunk_decGood (s : State) :
    (recordBadChunk s).blk.decGood = s.blk.decGood := rfl
@[simp] theorem recordBadChunk_fault (s : State) :
    (recordBadChunk s).blk.fault = s.blk.fault := rfl
@[simp] theorem recordBadChunk_lastBad (s : State) :
    (recordBadChunk s).blk.lastBad = true := rfl
@[simp] theorem recordBadChunk_dcpFault (s : State) :
    (recordBadChunk s).blk.dcpFault = s.blk.dcpFault := rfl
@[simp] theorem recordBadChunk_overflow (s : State) :
    (recordBadChunk s).blk.overflow = s.blk.overflow := rfl
@[simp] theorem recordBadChunk_lastErr (s : State) :
    (recordBadChunk s).blk.lastErr = s.blk.lastErr := rfl
@[simp] theorem recordBadChunk_cntDecodedOk (s : State) :
    (recordBadChunk s).blk.cntDecodedOk = s.blk.cntDecodedOk := rfl
@[simp] theorem recordBadChunk_cntBadChunk (s : State) :
    (recordBadChunk s).blk.cntBadChunk = s.blk.cntBadChunk + 1#64 := rfl
@[simp] theorem recordBadChunk_cntFaults (s : State) :
    (recordBadChunk s).blk.cntFaults = s.blk.cntFaults := rfl
@[simp] theorem recordBadChunk_bytesRecovered (s : State) :
    (recordBadChunk s).blk.bytesRecovered = s.blk.bytesRecovered := rfl
@[simp] theorem recordBadChunk_cntGroupsFlushed (s : State) :
    (recordBadChunk s).blk.cntGroupsFlushed = s.blk.cntGroupsFlushed := rfl
@[simp] theorem recordBadChunk_cntDcpFault (s : State) :
    (recordBadChunk s).blk.cntDcpFault = s.blk.cntDcpFault := rfl
@[simp] theorem recordBadChunk_phase (s : State) :
    (recordBadChunk s).blk.phase = s.blk.phase := rfl
@[simp] theorem recordBadChunk_summary (s : State) :
    (recordBadChunk s).blk.summary = s.blk.summary := rfl
@[simp] theorem recordBadChunk_nextGroup (s : State) :
    (recordBadChunk s).blk.nextGroup = s.blk.nextGroup := rfl
@[simp] theorem recordBadChunk_high (s : State) :
    (recordBadChunk s).blk.high = s.blk.high := rfl
@[simp] theorem recordBadChunk_gt (s : State) :
    (recordBadChunk s).blk.gt = s.blk.gt := rfl
@[simp] theorem recordBadChunk_env (s : State) :
    (recordBadChunk s).env = s.env := rfl

/-! ### The erasure reassembly sink -/

@[simp] theorem raiseHigh_cfg (g : Nat) (s : State) :
    (raiseHigh g s).blk.cfg = s.blk.cfg := rfl
@[simp] theorem raiseHigh_cfgOk (g : Nat) (s : State) :
    (raiseHigh g s).blk.cfgOk = s.blk.cfgOk := rfl
@[simp] theorem raiseHigh_encGood (g : Nat) (s : State) :
    (raiseHigh g s).blk.encGood = s.blk.encGood := rfl
@[simp] theorem raiseHigh_decGood (g : Nat) (s : State) :
    (raiseHigh g s).blk.decGood = s.blk.decGood := rfl
@[simp] theorem raiseHigh_fault (g : Nat) (s : State) :
    (raiseHigh g s).blk.fault = s.blk.fault := rfl
@[simp] theorem raiseHigh_lastBad (g : Nat) (s : State) :
    (raiseHigh g s).blk.lastBad = s.blk.lastBad := rfl
@[simp] theorem raiseHigh_dcpFault (g : Nat) (s : State) :
    (raiseHigh g s).blk.dcpFault = s.blk.dcpFault := rfl
@[simp] theorem raiseHigh_overflow (g : Nat) (s : State) :
    (raiseHigh g s).blk.overflow = s.blk.overflow := rfl
@[simp] theorem raiseHigh_lastErr (g : Nat) (s : State) :
    (raiseHigh g s).blk.lastErr = s.blk.lastErr := rfl
@[simp] theorem raiseHigh_cntDecodedOk (g : Nat) (s : State) :
    (raiseHigh g s).blk.cntDecodedOk = s.blk.cntDecodedOk := rfl
@[simp] theorem raiseHigh_cntBadChunk (g : Nat) (s : State) :
    (raiseHigh g s).blk.cntBadChunk = s.blk.cntBadChunk := rfl
@[simp] theorem raiseHigh_cntFaults (g : Nat) (s : State) :
    (raiseHigh g s).blk.cntFaults = s.blk.cntFaults := rfl
@[simp] theorem raiseHigh_bytesRecovered (g : Nat) (s : State) :
    (raiseHigh g s).blk.bytesRecovered = s.blk.bytesRecovered := rfl
@[simp] theorem raiseHigh_cntGroupsFlushed (g : Nat) (s : State) :
    (raiseHigh g s).blk.cntGroupsFlushed = s.blk.cntGroupsFlushed := rfl
@[simp] theorem raiseHigh_cntDcpFault (g : Nat) (s : State) :
    (raiseHigh g s).blk.cntDcpFault = s.blk.cntDcpFault := rfl
@[simp] theorem raiseHigh_phase (g : Nat) (s : State) :
    (raiseHigh g s).blk.phase = s.blk.phase := rfl
@[simp] theorem raiseHigh_summary (g : Nat) (s : State) :
    (raiseHigh g s).blk.summary = s.blk.summary := rfl
@[simp] theorem raiseHigh_nextGroup (g : Nat) (s : State) :
    (raiseHigh g s).blk.nextGroup = s.blk.nextGroup := rfl
@[simp] theorem raiseHigh_high (g : Nat) (s : State) :
    (raiseHigh g s).blk.high = max s.blk.high (g + 1) := rfl
@[simp] theorem raiseHigh_gt (g : Nat) (s : State) :
    (raiseHigh g s).blk.gt = s.blk.gt := rfl
@[simp] theorem raiseHigh_env (g : Nat) (s : State) :
    (raiseHigh g s).env = s.env := rfl
@[simp] theorem setOverflow_cfg (s : State) :
    (setOverflow s).blk.cfg = s.blk.cfg := rfl
@[simp] theorem setOverflow_cfgOk (s : State) :
    (setOverflow s).blk.cfgOk = s.blk.cfgOk := rfl
@[simp] theorem setOverflow_encGood (s : State) :
    (setOverflow s).blk.encGood = s.blk.encGood := rfl
@[simp] theorem setOverflow_decGood (s : State) :
    (setOverflow s).blk.decGood = s.blk.decGood := rfl
@[simp] theorem setOverflow_fault (s : State) :
    (setOverflow s).blk.fault = s.blk.fault := rfl
@[simp] theorem setOverflow_lastBad (s : State) :
    (setOverflow s).blk.lastBad = s.blk.lastBad := rfl
@[simp] theorem setOverflow_dcpFault (s : State) :
    (setOverflow s).blk.dcpFault = s.blk.dcpFault := rfl
@[simp] theorem setOverflow_overflow (s : State) :
    (setOverflow s).blk.overflow = true := rfl
@[simp] theorem setOverflow_lastErr (s : State) :
    (setOverflow s).blk.lastErr = s.blk.lastErr := rfl
@[simp] theorem setOverflow_cntDecodedOk (s : State) :
    (setOverflow s).blk.cntDecodedOk = s.blk.cntDecodedOk := rfl
@[simp] theorem setOverflow_cntBadChunk (s : State) :
    (setOverflow s).blk.cntBadChunk = s.blk.cntBadChunk := rfl
@[simp] theorem setOverflow_cntFaults (s : State) :
    (setOverflow s).blk.cntFaults = s.blk.cntFaults := rfl
@[simp] theorem setOverflow_bytesRecovered (s : State) :
    (setOverflow s).blk.bytesRecovered = s.blk.bytesRecovered := rfl
@[simp] theorem setOverflow_cntGroupsFlushed (s : State) :
    (setOverflow s).blk.cntGroupsFlushed = s.blk.cntGroupsFlushed := rfl
@[simp] theorem setOverflow_cntDcpFault (s : State) :
    (setOverflow s).blk.cntDcpFault = s.blk.cntDcpFault := rfl
@[simp] theorem setOverflow_phase (s : State) :
    (setOverflow s).blk.phase = s.blk.phase := rfl
@[simp] theorem setOverflow_summary (s : State) :
    (setOverflow s).blk.summary = s.blk.summary := rfl
@[simp] theorem setOverflow_nextGroup (s : State) :
    (setOverflow s).blk.nextGroup = s.blk.nextGroup := rfl
@[simp] theorem setOverflow_high (s : State) :
    (setOverflow s).blk.high = s.blk.high := rfl
@[simp] theorem setOverflow_gt (s : State) :
    (setOverflow s).blk.gt = s.blk.gt := rfl
@[simp] theorem setOverflow_env (s : State) :
    (setOverflow s).env = s.env := rfl
@[simp] theorem putEntry_cfg (g : Nat) (e : GroupEntry) (s : State) :
    (putEntry g e s).blk.cfg = s.blk.cfg := rfl
@[simp] theorem putEntry_cfgOk (g : Nat) (e : GroupEntry) (s : State) :
    (putEntry g e s).blk.cfgOk = s.blk.cfgOk := rfl
@[simp] theorem putEntry_encGood (g : Nat) (e : GroupEntry) (s : State) :
    (putEntry g e s).blk.encGood = s.blk.encGood := rfl
@[simp] theorem putEntry_decGood (g : Nat) (e : GroupEntry) (s : State) :
    (putEntry g e s).blk.decGood = s.blk.decGood := rfl
@[simp] theorem putEntry_fault (g : Nat) (e : GroupEntry) (s : State) :
    (putEntry g e s).blk.fault = s.blk.fault := rfl
@[simp] theorem putEntry_lastBad (g : Nat) (e : GroupEntry) (s : State) :
    (putEntry g e s).blk.lastBad = s.blk.lastBad := rfl
@[simp] theorem putEntry_dcpFault (g : Nat) (e : GroupEntry) (s : State) :
    (putEntry g e s).blk.dcpFault = s.blk.dcpFault := rfl
@[simp] theorem putEntry_overflow (g : Nat) (e : GroupEntry) (s : State) :
    (putEntry g e s).blk.overflow = s.blk.overflow := rfl
@[simp] theorem putEntry_lastErr (g : Nat) (e : GroupEntry) (s : State) :
    (putEntry g e s).blk.lastErr = s.blk.lastErr := rfl
@[simp] theorem putEntry_cntDecodedOk (g : Nat) (e : GroupEntry) (s : State) :
    (putEntry g e s).blk.cntDecodedOk = s.blk.cntDecodedOk := rfl
@[simp] theorem putEntry_cntBadChunk (g : Nat) (e : GroupEntry) (s : State) :
    (putEntry g e s).blk.cntBadChunk = s.blk.cntBadChunk := rfl
@[simp] theorem putEntry_cntFaults (g : Nat) (e : GroupEntry) (s : State) :
    (putEntry g e s).blk.cntFaults = s.blk.cntFaults := rfl
@[simp] theorem putEntry_bytesRecovered (g : Nat) (e : GroupEntry) (s : State) :
    (putEntry g e s).blk.bytesRecovered = s.blk.bytesRecovered := rfl
@[simp] theorem putEntry_cntGroupsFlushed (g : Nat) (e : GroupEntry) (s : State) :
    (putEntry g e s).blk.cntGroupsFlushed = s.blk.cntGroupsFlushed := rfl
@[simp] theorem putEntry_cntDcpFault (g : Nat) (e : GroupEntry) (s : State) :
    (putEntry g e s).blk.cntDcpFault = s.blk.cntDcpFault := rfl
@[simp] theorem putEntry_phase (g : Nat) (e : GroupEntry) (s : State) :
    (putEntry g e s).blk.phase = s.blk.phase := rfl
@[simp] theorem putEntry_summary (g : Nat) (e : GroupEntry) (s : State) :
    (putEntry g e s).blk.summary = s.blk.summary := rfl
@[simp] theorem putEntry_nextGroup (g : Nat) (e : GroupEntry) (s : State) :
    (putEntry g e s).blk.nextGroup = s.blk.nextGroup := rfl
@[simp] theorem putEntry_high (g : Nat) (e : GroupEntry) (s : State) :
    (putEntry g e s).blk.high = s.blk.high := rfl
@[simp] theorem putEntry_gt (g : Nat) (e : GroupEntry) (s : State) :
    (putEntry g e s).blk.gt = gtSet s.blk.gt g e := rfl
@[simp] theorem putEntry_env (g : Nat) (e : GroupEntry) (s : State) :
    (putEntry g e s).env = s.env := rfl
@[simp] theorem advanceCursor_cfg (s : State) :
    (advanceCursor s).blk.cfg = s.blk.cfg := rfl
@[simp] theorem advanceCursor_cfgOk (s : State) :
    (advanceCursor s).blk.cfgOk = s.blk.cfgOk := rfl
@[simp] theorem advanceCursor_encGood (s : State) :
    (advanceCursor s).blk.encGood = s.blk.encGood := rfl
@[simp] theorem advanceCursor_decGood (s : State) :
    (advanceCursor s).blk.decGood = s.blk.decGood := rfl
@[simp] theorem advanceCursor_fault (s : State) :
    (advanceCursor s).blk.fault = s.blk.fault := rfl
@[simp] theorem advanceCursor_lastBad (s : State) :
    (advanceCursor s).blk.lastBad = s.blk.lastBad := rfl
@[simp] theorem advanceCursor_dcpFault (s : State) :
    (advanceCursor s).blk.dcpFault = s.blk.dcpFault := rfl
@[simp] theorem advanceCursor_overflow (s : State) :
    (advanceCursor s).blk.overflow = s.blk.overflow := rfl
@[simp] theorem advanceCursor_lastErr (s : State) :
    (advanceCursor s).blk.lastErr = s.blk.lastErr := rfl
@[simp] theorem advanceCursor_cntDecodedOk (s : State) :
    (advanceCursor s).blk.cntDecodedOk = s.blk.cntDecodedOk := rfl
@[simp] theorem advanceCursor_cntBadChunk (s : State) :
    (advanceCursor s).blk.cntBadChunk = s.blk.cntBadChunk := rfl
@[simp] theorem advanceCursor_cntFaults (s : State) :
    (advanceCursor s).blk.cntFaults = s.blk.cntFaults := rfl
@[simp] theorem advanceCursor_bytesRecovered (s : State) :
    (advanceCursor s).blk.bytesRecovered = s.blk.bytesRecovered := rfl
@[simp] theorem advanceCursor_cntGroupsFlushed (s : State) :
    (advanceCursor s).blk.cntGroupsFlushed = s.blk.cntGroupsFlushed := rfl
@[simp] theorem advanceCursor_cntDcpFault (s : State) :
    (advanceCursor s).blk.cntDcpFault = s.blk.cntDcpFault := rfl
@[simp] theorem advanceCursor_phase (s : State) :
    (advanceCursor s).blk.phase = s.blk.phase := rfl
@[simp] theorem advanceCursor_summary (s : State) :
    (advanceCursor s).blk.summary = s.blk.summary := rfl
@[simp] theorem advanceCursor_nextGroup (s : State) :
    (advanceCursor s).blk.nextGroup = s.blk.nextGroup + 1 := rfl
@[simp] theorem advanceCursor_high (s : State) :
    (advanceCursor s).blk.high = s.blk.high := rfl
@[simp] theorem advanceCursor_gt (s : State) :
    (advanceCursor s).blk.gt = s.blk.gt := rfl
@[simp] theorem advanceCursor_env (s : State) :
    (advanceCursor s).env = s.env := rfl
@[simp] theorem endSession_cfg (lost : List Nat) (s : State) :
    (endSession lost s).blk.cfg = s.blk.cfg := rfl
@[simp] theorem endSession_cfgOk (lost : List Nat) (s : State) :
    (endSession lost s).blk.cfgOk = s.blk.cfgOk := rfl
@[simp] theorem endSession_encGood (lost : List Nat) (s : State) :
    (endSession lost s).blk.encGood = s.blk.encGood := rfl
@[simp] theorem endSession_decGood (lost : List Nat) (s : State) :
    (endSession lost s).blk.decGood = s.blk.decGood := rfl
@[simp] theorem endSession_fault (lost : List Nat) (s : State) :
    (endSession lost s).blk.fault = s.blk.fault := rfl
@[simp] theorem endSession_lastBad (lost : List Nat) (s : State) :
    (endSession lost s).blk.lastBad = s.blk.lastBad := rfl
@[simp] theorem endSession_dcpFault (lost : List Nat) (s : State) :
    (endSession lost s).blk.dcpFault = s.blk.dcpFault := rfl
@[simp] theorem endSession_overflow (lost : List Nat) (s : State) :
    (endSession lost s).blk.overflow = s.blk.overflow := rfl
@[simp] theorem endSession_lastErr (lost : List Nat) (s : State) :
    (endSession lost s).blk.lastErr = s.blk.lastErr := rfl
@[simp] theorem endSession_cntDecodedOk (lost : List Nat) (s : State) :
    (endSession lost s).blk.cntDecodedOk = s.blk.cntDecodedOk := rfl
@[simp] theorem endSession_cntBadChunk (lost : List Nat) (s : State) :
    (endSession lost s).blk.cntBadChunk = s.blk.cntBadChunk := rfl
@[simp] theorem endSession_cntFaults (lost : List Nat) (s : State) :
    (endSession lost s).blk.cntFaults = s.blk.cntFaults := rfl
@[simp] theorem endSession_bytesRecovered (lost : List Nat) (s : State) :
    (endSession lost s).blk.bytesRecovered = s.blk.bytesRecovered := rfl
@[simp] theorem endSession_cntGroupsFlushed (lost : List Nat) (s : State) :
    (endSession lost s).blk.cntGroupsFlushed = s.blk.cntGroupsFlushed := rfl
@[simp] theorem endSession_cntDcpFault (lost : List Nat) (s : State) :
    (endSession lost s).blk.cntDcpFault = s.blk.cntDcpFault := rfl
@[simp] theorem endSession_phase (lost : List Nat) (s : State) :
    (endSession lost s).blk.phase = .finalized := rfl
@[simp] theorem endSession_summary (lost : List Nat) (s : State) :
    (endSession lost s).blk.summary = summaryOf lost s.blk.cntGroupsFlushed := rfl
@[simp] theorem endSession_nextGroup (lost : List Nat) (s : State) :
    (endSession lost s).blk.nextGroup = s.blk.high := rfl
@[simp] theorem endSession_high (lost : List Nat) (s : State) :
    (endSession lost s).blk.high = s.blk.high := rfl
@[simp] theorem endSession_gt (lost : List Nat) (s : State) :
    (endSession lost s).blk.gt = s.blk.gt := rfl
@[simp] theorem endSession_env (lost : List Nat) (s : State) :
    (endSession lost s).env = s.env := rfl
@[simp] theorem recordPush_cfg (f : Bool) (b : Block) :
    (recordPush f b).cfg = b.cfg := rfl
@[simp] theorem recordPush_cfgOk (f : Bool) (b : Block) :
    (recordPush f b).cfgOk = b.cfgOk := rfl
@[simp] theorem recordPush_encGood (f : Bool) (b : Block) :
    (recordPush f b).encGood = b.encGood := rfl
@[simp] theorem recordPush_decGood (f : Bool) (b : Block) :
    (recordPush f b).decGood = b.decGood := rfl
@[simp] theorem recordPush_fault (f : Bool) (b : Block) :
    (recordPush f b).fault = b.fault := rfl
@[simp] theorem recordPush_lastBad (f : Bool) (b : Block) :
    (recordPush f b).lastBad = b.lastBad := rfl
@[simp] theorem recordPush_dcpFault (f : Bool) (b : Block) :
    (recordPush f b).dcpFault = (b.dcpFault || f) := rfl
@[simp] theorem recordPush_overflow (f : Bool) (b : Block) :
    (recordPush f b).overflow = b.overflow := rfl
@[simp] theorem recordPush_lastErr (f : Bool) (b : Block) :
    (recordPush f b).lastErr = b.lastErr := rfl
@[simp] theorem recordPush_cntDecodedOk (f : Bool) (b : Block) :
    (recordPush f b).cntDecodedOk = b.cntDecodedOk := rfl
@[simp] theorem recordPush_cntBadChunk (f : Bool) (b : Block) :
    (recordPush f b).cntBadChunk = b.cntBadChunk := rfl
@[simp] theorem recordPush_cntFaults (f : Bool) (b : Block) :
    (recordPush f b).cntFaults = b.cntFaults := rfl
@[simp] theorem recordPush_bytesRecovered (f : Bool) (b : Block) :
    (recordPush f b).bytesRecovered = b.bytesRecovered := rfl
@[simp] theorem recordPush_cntGroupsFlushed (f : Bool) (b : Block) :
    (recordPush f b).cntGroupsFlushed = b.cntGroupsFlushed := rfl
@[simp] theorem recordPush_cntDcpFault (f : Bool) (b : Block) :
    (recordPush f b).cntDcpFault = b.cntDcpFault + (if f then 1#64 else 0#64) := rfl
@[simp] theorem recordPush_phase (f : Bool) (b : Block) :
    (recordPush f b).phase = b.phase := rfl
@[simp] theorem recordPush_summary (f : Bool) (b : Block) :
    (recordPush f b).summary = b.summary := rfl
@[simp] theorem recordPush_nextGroup (f : Bool) (b : Block) :
    (recordPush f b).nextGroup = b.nextGroup := rfl
@[simp] theorem recordPush_high (f : Bool) (b : Block) :
    (recordPush f b).high = b.high := rfl
@[simp] theorem recordPush_gt (f : Bool) (b : Block) :
    (recordPush f b).gt = b.gt := rfl
@[simp] theorem recordFlush_cfg (g : Nat) (b : Block) :
    (recordFlush g b).cfg = b.cfg := rfl
@[simp] theorem recordFlush_cfgOk (g : Nat) (b : Block) :
    (recordFlush g b).cfgOk = b.cfgOk := rfl
@[simp] theorem recordFlush_encGood (g : Nat) (b : Block) :
    (recordFlush g b).encGood = b.encGood := rfl
@[simp] theorem recordFlush_decGood (g : Nat) (b : Block) :
    (recordFlush g b).decGood = b.decGood := rfl
@[simp] theorem recordFlush_fault (g : Nat) (b : Block) :
    (recordFlush g b).fault = b.fault := rfl
@[simp] theorem recordFlush_lastBad (g : Nat) (b : Block) :
    (recordFlush g b).lastBad = b.lastBad := rfl
@[simp] theorem recordFlush_dcpFault (g : Nat) (b : Block) :
    (recordFlush g b).dcpFault = b.dcpFault := rfl
@[simp] theorem recordFlush_overflow (g : Nat) (b : Block) :
    (recordFlush g b).overflow = b.overflow := rfl
@[simp] theorem recordFlush_lastErr (g : Nat) (b : Block) :
    (recordFlush g b).lastErr = b.lastErr := rfl
@[simp] theorem recordFlush_cntDecodedOk (g : Nat) (b : Block) :
    (recordFlush g b).cntDecodedOk = b.cntDecodedOk := rfl
@[simp] theorem recordFlush_cntBadChunk (g : Nat) (b : Block) :
    (recordFlush g b).cntBadChunk = b.cntBadChunk := rfl
@[simp] theorem recordFlush_cntFaults (g : Nat) (b : Block) :
    (recordFlush g b).cntFaults = b.cntFaults := rfl
@[simp] theorem recordFlush_bytesRecovered (g : Nat) (b : Block) :
    (recordFlush g b).bytesRecovered = b.bytesRecovered + BitVec.ofNat 64 b.cfg.groupSize := rfl
@[simp] theorem recordFlush_cntGroupsFlushed (g : Nat) (b : Block) :
    (recordFlush g b).cntGroupsFlushed = b.cntGroupsFlushed + 1#64 := rfl
@[simp] theorem recordFlush_cntDcpFault (g : Nat) (b : Block) :
    (recordFlush g b).cntDcpFault = b.cntDcpFault := rfl
@[simp] theorem recordFlush_phase (g : Nat) (b : Block) :
    (recordFlush g b).phase = b.phase := rfl
@[simp] theorem recordFlush_summary (g : Nat) (b : Block) :
    (recordFlush g b).summary = b.summary := rfl
@[simp] theorem recordFlush_nextGroup (g : Nat) (b : Block) :
    (recordFlush g b).nextGroup = b.nextGroup := rfl
@[simp] theorem recordFlush_high (g : Nat) (b : Block) :
    (recordFlush g b).high = b.high := rfl
@[simp] theorem recordFlush_gt (g : Nat) (b : Block) :
    (recordFlush g b).gt = gtErase b.gt g := rfl
@[simp] theorem flush_cfg (g : Nat) (payload : Bytes) (s : State) :
    (flush g payload s).blk.cfg = s.blk.cfg := rfl
@[simp] theorem flush_cfgOk (g : Nat) (payload : Bytes) (s : State) :
    (flush g payload s).blk.cfgOk = s.blk.cfgOk := rfl
@[simp] theorem flush_encGood (g : Nat) (payload : Bytes) (s : State) :
    (flush g payload s).blk.encGood = s.blk.encGood := rfl
@[simp] theorem flush_decGood (g : Nat) (payload : Bytes) (s : State) :
    (flush g payload s).blk.decGood = s.blk.decGood := rfl
@[simp] theorem flush_fault (g : Nat) (payload : Bytes) (s : State) :
    (flush g payload s).blk.fault = s.blk.fault := rfl
@[simp] theorem flush_lastBad (g : Nat) (payload : Bytes) (s : State) :
    (flush g payload s).blk.lastBad = s.blk.lastBad := rfl
@[simp] theorem flush_dcpFault (g : Nat) (payload : Bytes) (s : State) :
    (flush g payload s).blk.dcpFault = (s.blk.dcpFault || nextDcpFault s.env) := rfl
@[simp] theorem flush_overflow (g : Nat) (payload : Bytes) (s : State) :
    (flush g payload s).blk.overflow = s.blk.overflow := rfl
@[simp] theorem flush_lastErr (g : Nat) (payload : Bytes) (s : State) :
    (flush g payload s).blk.lastErr = s.blk.lastErr := rfl
@[simp] theorem flush_cntDecodedOk (g : Nat) (payload : Bytes) (s : State) :
    (flush g payload s).blk.cntDecodedOk = s.blk.cntDecodedOk := rfl
@[simp] theorem flush_cntBadChunk (g : Nat) (payload : Bytes) (s : State) :
    (flush g payload s).blk.cntBadChunk = s.blk.cntBadChunk := rfl
@[simp] theorem flush_cntFaults (g : Nat) (payload : Bytes) (s : State) :
    (flush g payload s).blk.cntFaults = s.blk.cntFaults := rfl
@[simp] theorem flush_bytesRecovered (g : Nat) (payload : Bytes) (s : State) :
    (flush g payload s).blk.bytesRecovered = s.blk.bytesRecovered + BitVec.ofNat 64 s.blk.cfg.groupSize := rfl
@[simp] theorem flush_cntGroupsFlushed (g : Nat) (payload : Bytes) (s : State) :
    (flush g payload s).blk.cntGroupsFlushed = s.blk.cntGroupsFlushed + 1#64 := rfl
@[simp] theorem flush_cntDcpFault (g : Nat) (payload : Bytes) (s : State) :
    (flush g payload s).blk.cntDcpFault = s.blk.cntDcpFault + (if nextDcpFault s.env then 1#64 else 0#64) := rfl
@[simp] theorem flush_phase (g : Nat) (payload : Bytes) (s : State) :
    (flush g payload s).blk.phase = s.blk.phase := rfl
@[simp] theorem flush_summary (g : Nat) (payload : Bytes) (s : State) :
    (flush g payload s).blk.summary = s.blk.summary := rfl
@[simp] theorem flush_nextGroup (g : Nat) (payload : Bytes) (s : State) :
    (flush g payload s).blk.nextGroup = s.blk.nextGroup := rfl
@[simp] theorem flush_high (g : Nat) (payload : Bytes) (s : State) :
    (flush g payload s).blk.high = s.blk.high := rfl
@[simp] theorem flush_gt (g : Nat) (payload : Bytes) (s : State) :
    (flush g payload s).blk.gt = gtErase s.blk.gt g := rfl
@[simp] theorem flush_inbox (g : Nat) (payload : Bytes) (s : State) :
    (flush g payload s).env.inbox = s.env.inbox := rfl
@[simp] theorem flush_outbox (g : Nat) (payload : Bytes) (s : State) :
    (flush g payload s).env.outbox = s.env.outbox := rfl
@[simp] theorem flush_calls (g : Nat) (payload : Bytes) (s : State) :
    (flush g payload s).env.calls = s.env.calls
      ++ [.dcpPush (g * s.blk.cfg.groupSize) payload (nextDcpFault s.env)] := rfl
@[simp] theorem flush_srcAnswers (g : Nat) (payload : Bytes) (s : State) :
    (flush g payload s).env.srcAnswers = s.env.srcAnswers := rfl
@[simp] theorem flush_srcOkAnswers (g : Nat) (payload : Bytes) (s : State) :
    (flush g payload s).env.srcOkAnswers = s.env.srcOkAnswers := rfl
@[simp] theorem flush_sinkOkAnswers (g : Nat) (payload : Bytes) (s : State) :
    (flush g payload s).env.sinkOkAnswers = s.env.sinkOkAnswers := rfl
@[simp] theorem flush_dcpAnswers (g : Nat) (payload : Bytes) (s : State) :
    (flush g payload s).env.dcpAnswers = s.env.dcpAnswers.tail := rfl

/-! ### A reset during a command -/

@[simp] theorem worldAfterCalls_inbox (made : List Call) (env : World) :
    (worldAfterCalls made env).inbox = env.inbox := rfl
@[simp] theorem worldAfterCalls_outbox (made : List Call) (env : World) :
    (worldAfterCalls made env).outbox = env.outbox := rfl
@[simp] theorem worldAfterCalls_calls (made : List Call) (env : World) :
    (worldAfterCalls made env).calls = env.calls ++ made := rfl
@[simp] theorem worldAfterCalls_srcAnswers (made : List Call) (env : World) :
    (worldAfterCalls made env).srcAnswers = env.srcAnswers.drop (made.countP isSrcRead) := rfl
@[simp] theorem worldAfterCalls_srcOkAnswers (made : List Call) (env : World) :
    (worldAfterCalls made env).srcOkAnswers = env.srcOkAnswers.drop (made.countP isSrcOk) := rfl
@[simp] theorem worldAfterCalls_sinkOkAnswers (made : List Call) (env : World) :
    (worldAfterCalls made env).sinkOkAnswers = env.sinkOkAnswers.drop (made.countP isSinkOk) := rfl
@[simp] theorem worldAfterCalls_dcpAnswers (made : List Call) (env : World) :
    (worldAfterCalls made env).dcpAnswers = env.dcpAnswers.drop (made.countP isDcpPush) := rfl
@[simp] theorem abandon_blk (made : Nat) (straps : Cfg) (s t : State) :
    (abandon made straps s t).blk = Block.afterReset straps (strapsValid straps) := rfl
@[simp] theorem abandon_env (made : Nat) (straps : Cfg) (s t : State) :
    (abandon made straps s t).env
      = worldAfterCalls ((t.env.calls.drop s.env.calls.length).take made) s.env := rfl

end Sys2Proof.Machine
end

