-- ==== Sys2Proof/Laws/Table.lean ====
section
/-! SUPPORT. Lemmas of the group table: read after write, frame, and the canonical form. -/

namespace Sys2Proof.Machine

/-- A read after a write to the same id gives the entry written. -/
@[simp] theorem gtGet_gtSet_same (gt : GroupTable) (g : Nat) (e : GroupEntry) :
    gtGet (gtSet gt g e) g = some e := by
  induction gt with
  | nil => simp [gtSet, gtGet]
  | cons x rest ih =>
    simp only [gtSet]
    split
    · simp [gtGet]
    · split
      · simp [gtGet]
      · simp_all [gtGet]

/-- A write leaves every other id alone. -/
theorem gtGet_gtSet_other (gt : GroupTable) (g h : Nat) (e : GroupEntry) (ne : h ≠ g) :
    gtGet (gtSet gt g e) h = gtGet gt h := by
  induction gt with
  | nil => simp [gtSet, gtGet, ne]
  | cons x rest ih =>
    simp only [gtSet]
    split
    · simp [gtGet, ne]
    · split
      · simp_all [gtGet]
      · simp [gtGet, ih]

/-- A second write to one id replaces the first. -/
@[simp] theorem gtSet_gtSet (gt : GroupTable) (g : Nat) (d e : GroupEntry) :
    gtSet (gtSet gt g d) g e = gtSet gt g e := by
  induction gt with
  | nil => simp [gtSet]
  | cons x rest ih =>
    simp only [gtSet]
    split
    · simp [gtSet]
    · split
      · simp [gtSet]
      · simp_all [gtSet]

/-- An erased id has no entry. -/
@[simp] theorem gtGet_gtErase_same (gt : GroupTable) (g : Nat) : gtGet (gtErase gt g) g = none := by
  induction gt with
  | nil => rfl
  | cons x rest ih =>
    by_cases h : x.1 = g
    · simpa [gtErase, List.filter_cons, h] using ih
    · have h' : ¬ g = x.1 := fun e => h e.symm
      simpa [gtErase, List.filter_cons, h, gtGet, h'] using ih

/-- Erasing leaves every other id alone. -/
theorem gtGet_gtErase_other (gt : GroupTable) (g h : Nat) (ne : h ≠ g) :
    gtGet (gtErase gt g) h = gtGet gt h := by
  induction gt with
  | nil => rfl
  | cons x rest ih =>
    by_cases hx : x.1 = g
    · have : ¬ h = x.1 := fun e => ne (e.trans hx)
      simpa [gtErase, List.filter_cons, hx, gtGet, this, ne] using ih
    · by_cases hh : h = x.1
      · simp [gtErase, gtGet, hh, fun e : x.1 = g => hx e]
      · simpa [gtErase, List.filter_cons, gtGet, hh, hx] using ih

/-- What is in the table after a write: the entry written, or what was there. -/
theorem mem_gtSet {gt : GroupTable} {g : Nat} {e : GroupEntry} {x : Nat × GroupEntry}
    (hx : x ∈ gtSet gt g e) : x = (g, e) ∨ x ∈ gt := by
  induction gt with
  | nil => simpa [gtSet] using hx
  | cons y rest ih =>
    simp only [gtSet] at hx
    split at hx
    · simpa using hx
    · split at hx
      · rcases List.mem_cons.1 hx with h | h
        · exact .inl h
        · exact .inr (List.mem_cons_of_mem _ h)
      · rcases List.mem_cons.1 hx with h | h
        · exact .inr (h ▸ List.mem_cons_self)
        · exact (ih h).imp_right (List.mem_cons_of_mem _)

/-- What is in the table after an erasure: what was there under another id. -/
@[simp] theorem mem_gtErase {gt : GroupTable} {g : Nat} {x : Nat × GroupEntry} :
    x ∈ gtErase gt g ↔ x ∈ gt ∧ x.1 ≠ g := by simp [gtErase]

/-- The empty table is canonical. -/
@[simp] theorem gtWf_nil : gtWf [] := List.Pairwise.nil

/-- The canonical form, entry by entry. -/
theorem gtWf_cons {x : Nat × GroupEntry} {rest : GroupTable} :
    gtWf (x :: rest) ↔ (∀ y ∈ rest, x.1 < y.1) ∧ gtWf rest := List.pairwise_cons

/-- A write keeps the canonical form. -/
theorem gtWf_gtSet {gt : GroupTable} (g : Nat) (e : GroupEntry) (h : gtWf gt) :
    gtWf (gtSet gt g e) := by
  induction gt with
  | nil => simp [gtSet, gtWf]
  | cons y rest ih =>
    obtain ⟨hy, hr⟩ := gtWf_cons.1 h
    simp only [gtSet]
    split
    · rename_i lt
      refine gtWf_cons.2 ⟨fun z hz => ?_, h⟩
      rcases List.mem_cons.1 hz with rfl | hz
      · exact lt
      · exact lt.trans (hy z hz)
    · split
      · rename_i eq
        exact gtWf_cons.2 ⟨fun z hz => eq ▸ hy z hz, hr⟩
      · refine gtWf_cons.2 ⟨fun z hz => ?_, ih hr⟩
        rcases mem_gtSet hz with rfl | hz
        · simp only; omega
        · exact hy z hz

/-- An erasure keeps the canonical form. -/
theorem gtWf_gtErase {gt : GroupTable} (g : Nat) (h : gtWf gt) : gtWf (gtErase gt g) :=
  List.Pairwise.filter _ h

/-- What a read finds is in the table. -/
theorem mem_of_gtGet {gt : GroupTable} {g : Nat} {e : GroupEntry} (h : gtGet gt g = some e) :
    (g, e) ∈ gt := by
  induction gt with
  | nil => simp [gtGet] at h
  | cons x rest ih =>
    simp only [gtGet] at h
    split at h
    · rename_i eq
      exact List.mem_cons.2 (.inl (Prod.ext eq (Option.some.inj h).symm))
    · exact List.mem_cons_of_mem _ (ih h)

/-- In canonical form a read finds what is in the table. -/
theorem gtGet_of_mem {gt : GroupTable} {g : Nat} {e : GroupEntry} (wf : gtWf gt)
    (h : (g, e) ∈ gt) : gtGet gt g = some e := by
  induction gt with
  | nil => simp at h
  | cons x rest ih =>
    obtain ⟨hx, hr⟩ := gtWf_cons.1 wf
    rcases List.mem_cons.1 h with rfl | h
    · simp [gtGet]
    · have : g ≠ x.1 := Nat.ne_of_gt (hx _ h)
      simpa [gtGet, this] using ih hr h

/-- A read finds nothing exactly where no entry has the id. -/
theorem gtGet_eq_none {gt : GroupTable} {g : Nat} : gtGet gt g = none ↔ ∀ x ∈ gt, x.1 ≠ g := by
  induction gt with
  | nil => simp [gtGet]
  | cons x rest ih =>
    simp only [gtGet]
    split
    · rename_i eq
      simp [eq]
    · rename_i ne
      simp [ih, Ne.symm (Ne.intro ne)]

/-- Canonical tables that read alike are equal. -/
theorem gtWf_ext {gt hu : GroupTable} (h1 : gtWf gt) (h2 : gtWf hu)
    (h : ∀ g, gtGet gt g = gtGet hu g) : gt = hu := by
  have key : ∀ x, x ∈ gt ↔ x ∈ hu := fun x =>
    ⟨fun m => mem_of_gtGet ((h x.1) ▸ gtGet_of_mem h1 m),
      fun m => mem_of_gtGet ((h x.1).symm ▸ gtGet_of_mem h2 m)⟩
  have nd : ∀ {l : GroupTable}, gtWf l → l.Nodup := fun w =>
    List.Pairwise.imp (fun {a b} lt (e : a = b) => by subst e; exact Nat.lt_irrefl _ lt) w
  exact List.Perm.eq_of_pairwise
    (fun a b _ _ ab ba => absurd ab (Nat.lt_asymm ba)) h1 h2
    ((List.perm_ext_iff_of_nodup (nd h1) (nd h2)).2 key)

/-- A write under a new id adds one entry. -/
theorem length_gtSet_of_none {gt : GroupTable} {g : Nat} (e : GroupEntry) (h : gtGet gt g = none) :
    (gtSet gt g e).length = gt.length + 1 := by
  induction gt with
  | nil => rfl
  | cons x rest ih =>
    simp only [gtGet] at h
    split at h
    · cases h
    · rename_i ne
      simp only [gtSet, ne, ↓reduceIte]
      split
      · rfl
      · simp [ih h]

/-- A write under an id of the table keeps the number of entries. -/
theorem length_gtSet_of_some {gt : GroupTable} {g : Nat} {d : GroupEntry} (e : GroupEntry)
    (wf : gtWf gt) (h : gtGet gt g = some d) : (gtSet gt g e).length = gt.length := by
  induction gt with
  | nil => simp [gtGet] at h
  | cons x rest ih =>
    obtain ⟨hx, hr⟩ := gtWf_cons.1 wf
    simp only [gtGet] at h
    simp only [gtSet]
    split at h
    · rename_i eq
      simp [eq]
    · rename_i ne
      have lt : ¬ g < x.1 := fun lt => by
        have := hx _ (mem_of_gtGet h)
        simp only at this
        omega
      simp [lt, ne, ih hr h]

/-- What `resolvedPayload` answers. -/
theorem resolvedPayload_eq_some {gt : GroupTable} {g : Nat} {payload : Bytes} :
    resolvedPayload gt g = some payload ↔ gtGet gt g = some (.resolved payload) := by
  unfold resolvedPayload
  split <;> simp_all

/-- Where `resolvedPayload` answers none. -/
theorem resolvedPayload_eq_none {gt : GroupTable} {g : Nat} :
    resolvedPayload gt g = none ↔ ∀ payload, gtGet gt g ≠ some (.resolved payload) := by
  unfold resolvedPayload
  split <;> simp_all

/-- Taking out a RESOLVED entry makes the table shorter. -/
theorem length_gtErase_lt {gt : GroupTable} {g : Nat} {e : GroupEntry} (h : gtGet gt g = some e) :
    (gtErase gt g).length < gt.length := by
  refine List.length_filter_lt_length_iff_exists.2 ⟨(g, e), mem_of_gtGet h, by simp⟩

/-- The table after reset is canonical. -/
theorem reset_gtWf : gtWf State.reset.blk.gt := gtWf_nil

end Sys2Proof.Machine
end

