-- ==== Sys2Proof/Laws/Ops.lean ====
section
/-! SUPPORT. For each shared operation, what it can do, said once: cite these and unfold nothing. -/

namespace Sys2Proof.Machine

/-! ### Answers of the collaborators -/

/-- A written answer is the one taken. -/
@[simp] theorem nextAnswer_cons {α : Type} (a : α) (l : List α) (free : α) :
    nextAnswer (a :: l) free = a := rfl

/-- Where no answer is written down, the free value is taken. -/
@[simp] theorem nextAnswer_nil {α : Type} (free : α) : nextAnswer [] free = free := rfl

/-- The count of an answer is never above the number asked for. -/
theorem srcCount_le (n : Nat) (a : SrcAnswer) : srcCount n a ≤ (n : Int) := by
  cases a with
  | bytes l => simp [srcCount]
  | ended k => simp only [srcCount]; omega

/-- The bytes of an answer are never more than the number asked for. -/
theorem length_srcBytes_le (n : Nat) (a : SrcAnswer) : (srcBytes n a).length ≤ n := by
  cases a <;> simp [srcBytes]

/-- Where the count is above 0, it counts the bytes. -/
theorem srcCount_of_pos {n : Nat} {a : SrcAnswer} (h : 0 < srcCount n a) :
    srcCount n a = ((srcBytes n a).length : Int) := by
  cases a with
  | bytes l => rfl
  | ended k => simp only [srcCount] at h; omega

/-- Which push is made does not depend on what the stage answers to it. -/
@[simp] theorem withoutPushAnswer_dcpPush (offset : Nat) (bytes : Bytes) (f : Bool) :
    withoutPushAnswer (.dcpPush offset bytes f) = .dcpPush offset bytes false := rfl

/-- Only a `DcpPush` loses something. -/
@[simp] theorem withoutPushAnswer_idem (c : Call) :
    withoutPushAnswer (withoutPushAnswer c) = withoutPushAnswer c := by cases c <;> rfl

/-- The pushes among calls do not depend on what the stage answers. -/
@[simp] theorem pushesOf_withoutPushAnswer (calls : List Call) :
    pushesOf (calls.map withoutPushAnswer) = pushesOf calls := by
  unfold pushesOf
  rw [List.filterMap_map]
  refine List.filterMap_congr fun c _ => ?_
  cases c <;> rfl

/-! ### Responses and exceptions -/

/-- A `RSP0` with status OK, as a sum of fields. -/
theorem rsp0Word_ok (op : Byte) (n : Nat) (h : n < 2 ^ 32) :
    rsp0Word op .ok n = (op.zeroExtend 64 <<< 56) ||| BitVec.ofNat 64 n := by
  have e : BitVec.ofNat 64 n = (BitVec.ofNat 32 n).zeroExtend 64 :=
    BitVec.eq_of_toNat_eq (by
      rw [BitVec.toNat_setWidth, BitVec.toNat_ofNat, BitVec.toNat_ofNat, Nat.mod_eq_of_lt h])
  rw [e]
  apply BitVec.eq_of_getLsbD_eq
  intro i hi
  simp only [rsp0Word, statusCode, BitVec.getLsbD_append, BitVec.getLsbD_or, BitVec.getLsbD_shiftLeft,
    BitVec.getLsbD_setWidth, BitVec.truncate_eq_setWidth, BitVec.getLsbD_zero]
  by_cases h1 : i < 32
  · simp [h1, show i < 56 by omega, hi]
  · by_cases h2 : i < 56
    · have z : (BitVec.ofNat 32 n).getLsbD i = false := BitVec.getLsbD_of_ge _ _ (by omega)
      simp only [h1, h2, z]
      simp
      intros
      omega
    · have z : (BitVec.ofNat 32 n).getLsbD i = false := BitVec.getLsbD_of_ge _ _ (by omega)
      simp [h1, h2, z, hi, show ¬ i - 32 < 16 by omega, show ¬ i - 32 - 16 < 8 by omega,
        show i - 56 < 64 by omega, show i - 32 - 16 - 8 = i - 56 by omega]

/-- A response with status OK is the state of `answered`, as long as `DLEN` can hold its length. -/
theorem respond_eq_answered (op : Byte) (value : Word64) (rdata : Bytes) (s : State)
    (h : rdata.length < 2 ^ 32) :
    respond op value rdata s = answered (okResponse op value rdata) s := by
  simp [respond, answered, okResponse, rsp0Word_ok op _ h]

/-- Exception entry is the state of `faulted`. -/
theorem raise_eq_faulted (x : Status) (op : Byte) (s : State) : raise x op s = faulted x op s := by
  have key : rsp0Word op x 0
      = (op.zeroExtend 64 <<< 56) ||| (BitVec.ofNat 64 (codeNumber x) <<< 48) := by
    apply BitVec.eq_of_getLsbD_eq
    intro i hi
    simp only [rsp0Word, BitVec.getLsbD_append, BitVec.getLsbD_or, BitVec.getLsbD_shiftLeft,
      BitVec.getLsbD_setWidth, BitVec.truncate_eq_setWidth, BitVec.getLsbD_zero]
    by_cases h1 : i < 48
    · by_cases h0 : i < 32
      · simp [h0, h1, show i < 56 by omega]
      · simp [h0, h1, show i < 56 by omega, show i - 32 < 16 by omega]
    · by_cases h2 : i < 56
      · have hs : (statusCode x).getLsbD (i - 32 - 16)
            = (BitVec.ofNat 64 (codeNumber x)).getLsbD (i - 48) := by
          rw [show i - 32 - 16 = i - 48 by omega]
          have : i - 48 < 8 := by omega
          generalize i - 48 = j at this
          cases x <;> simp only [statusCode, codeNumber] <;> interval_cases j <;> rfl
        simp only [show ¬ i < 32 by omega, h1, h2, hi, show ¬ i - 32 < 16 by omega,
          show i - 32 - 16 < 8 by omega, hs]
        simp
      · have hs : (BitVec.ofNat 64 (codeNumber x)).getLsbD (i - 48) = false := by
          have : 8 ≤ i - 48 := by omega
          have lt : i - 48 < 16 := by omega
          generalize i - 48 = j at this lt
          cases x <;> simp only [codeNumber] <;> interval_cases j <;> rfl
        simp [show ¬ i < 32 by omega, h1, h2, hi, show ¬ i - 32 < 16 by omega,
          show ¬ i - 32 - 16 < 8 by omega, hs, show i - 56 < 64 by omega,
          show i - 32 - 16 - 8 = i - 56 by omega]
  simp [raise, faulted, key]

/-- The guards of a command: the configuration, then the length, then its own effect. -/
theorem guarded_cases (op : Byte) (admitted : Bool) (body : State → State) (s : State) :
    (s.blk.cfgOk = false ∧ guarded op admitted body s = raise .cfgInvalid op s)
    ∨ (s.blk.cfgOk = true ∧ admitted = false ∧ guarded op admitted body s = raise .invalidInput op s)
    ∨ (s.blk.cfgOk = true ∧ admitted = true ∧ guarded op admitted body s = body s) := by
  unfold guarded
  cases s.blk.cfgOk <;> cases admitted <;> simp

/-- Both guards passed. -/
theorem guarded_pass {op : Byte} {admitted : Bool} {body : State → State} {s : State}
    (ok : s.blk.cfgOk = true) (fits : admitted = true) : guarded op admitted body s = body s := by
  simp [guarded, ok, fits]

/-- An invalid configuration is found first. -/
theorem guarded_unconfigured {op : Byte} {admitted : Bool} {body : State → State} {s : State}
    (bad : s.blk.cfgOk = false) : guarded op admitted body s = raise .cfgInvalid op s := by
  simp [guarded, bad]

/-- A length that is not admitted is found second. -/
theorem guarded_badLength {op : Byte} {admitted : Bool} {body : State → State} {s : State}
    (ok : s.blk.cfgOk = true) (bad : admitted = false) :
    guarded op admitted body s = raise .invalidInput op s := by
  simp [guarded, ok, bad]

/-- The guard of `NOP` and `RDREG`. -/
theorem lengthGuarded_cases (op : Byte) (admitted : Bool) (body : State → State) (s : State) :
    (admitted = false ∧ lengthGuarded op admitted body s = raise .invalidInput op s)
    ∨ (admitted = true ∧ lengthGuarded op admitted body s = body s) := by
  unfold lengthGuarded
  cases admitted <;> simp

/-- When data are admitted that must be empty. -/
@[simp] theorem noDataAdmitted_eq_true (data : Bytes) : noDataAdmitted data = true ↔ data = [] := by
  simp [noDataAdmitted]

/-- When `ENC` admits its data. -/
@[simp] theorem payloadAdmitted_eq_true (cfg : Cfg) (data : Bytes) :
    payloadAdmitted cfg data = true ↔ cfg.parity = 0 ∨ data.length ≤ cfg.bufferSize - cfg.parity := by
  unfold payloadAdmitted
  rw [Bool.or_eq_true]
  exact or_congr decide_eq_true_iff decide_eq_true_iff

/-- When `DEC` and `WR` admit their data. -/
@[simp] theorem codewordAdmitted_eq_true (cfg : Cfg) (data : Bytes) :
    codewordAdmitted cfg data = true ↔ cfg.parity = 0 ∨ data.length = cfg.bufferSize := by
  simp [codewordAdmitted]

/-- When `ACCEPT` admits its data. -/
@[simp] theorem chunkAdmitted_eq_true (cfg : Cfg) (data : Bytes) :
    chunkAdmitted cfg data = true ↔ data.length = cfg.chunkSize := by
  simp [chunkAdmitted]

/-! ### Flushing -/

/-- What a flush writes in the block. -/
theorem flush_blk (g : Nat) (payload : Bytes) (s : State) :
    (flush g payload s).blk = recordFlush g (recordPush (nextDcpFault s.env) s.blk) := rfl

/-- What a flush writes beside the block. -/
theorem flush_env (g : Nat) (payload : Bytes) (s : State) :
    (flush g payload s).env = (dcpPush (g * s.blk.cfg.groupSize) payload s).env := rfl

/-- The flush loop stops at a cursor that is not RESOLVED. -/
theorem flushLoop_stop (fuel n : Nat) (s : State)
    (h : resolvedPayload s.blk.gt s.blk.nextGroup = none) : flushLoop fuel n s = (s, n) := by
  cases fuel with
  | zero => rfl
  | succ fuel => simp [flushLoop, h]

/-- The flush loop stops past the last group. -/
theorem flushLoop_past_end (fuel n : Nat) (s : State) (h : 65535 < s.blk.nextGroup) :
    flushLoop fuel n s = (s, n) := by
  cases fuel with
  | zero => rfl
  | succ fuel => simp [flushLoop, Nat.not_le.2 h]

/-- One turn of the flush loop. -/
theorem flushLoop_turn (fuel n : Nat) (s : State) (payload : Bytes) (h : s.blk.nextGroup ≤ 65535)
    (hp : resolvedPayload s.blk.gt s.blk.nextGroup = some payload) :
    flushLoop (fuel + 1) n s
      = flushLoop fuel (n + 1) (advanceCursor (flush s.blk.nextGroup payload s)) := by
  simp [flushLoop, h, hp]

/-- What holds of the flush loop whatever it flushes: what every turn keeps, the loop keeps. -/
theorem flushLoop_induct (P : State → Nat → Prop)
    (turn : ∀ (s : State) (n : Nat) (payload : Bytes), s.blk.nextGroup ≤ 65535 →
      resolvedPayload s.blk.gt s.blk.nextGroup = some payload → P s n →
      P (advanceCursor (flush s.blk.nextGroup payload s)) (n + 1))
    (fuel n : Nat) (s : State) (h : P s n) :
    P (flushLoop fuel n s).1 (flushLoop fuel n s).2 := by
  induction fuel generalizing n s with
  | zero => exact h
  | succ fuel ih =>
    by_cases le : s.blk.nextGroup ≤ 65535
    · cases hp : resolvedPayload s.blk.gt s.blk.nextGroup with
      | none => rw [flushLoop_stop _ _ _ hp]; exact h
      | some payload =>
        rw [flushLoop_turn _ _ _ _ le hp]
        exact ih _ _ (turn s n payload le hp h)
    · rw [flushLoop_past_end _ _ _ (by omega)]; exact h

/-- What the whole flush leaves alone, and how far it moves the cursor. -/
theorem flushAll_frame (s : State) :
    (flushAll s).1.blk
        = { s.blk with
            dcpFault := (flushAll s).1.blk.dcpFault
            cntDcpFault := (flushAll s).1.blk.cntDcpFault
            bytesRecovered := (flushAll s).1.blk.bytesRecovered
            cntGroupsFlushed := (flushAll s).1.blk.cntGroupsFlushed
            gt := (flushAll s).1.blk.gt
            nextGroup := s.blk.nextGroup + (flushAll s).2 }
      ∧ (flushAll s).1.env
        = { s.env with
            calls := (flushAll s).1.env.calls
            dcpAnswers := (flushAll s).1.env.dcpAnswers } := by
  have key := flushLoop_induct
    (fun t n => ∃ dcp cnt bytes flushed gt calls answers, t =
      { blk := { s.blk with
          dcpFault := dcp, cntDcpFault := cnt, bytesRecovered := bytes
          cntGroupsFlushed := flushed, gt := gt, nextGroup := s.blk.nextGroup + n }
        env := { s.env with calls := calls, dcpAnswers := answers } })
    (by
      rintro t n payload - - ⟨dcp, cnt, bytes, flushed, gt, calls, answers, rfl⟩
      exact ⟨_, _, _, _, _, _, _, rfl⟩)
    s.blk.gt.length 0 s ⟨_, _, _, _, _, _, _, rfl⟩
  obtain ⟨dcp, cnt, bytes, flushed, gt, calls, answers, e⟩ := key
  unfold flushAll
  constructor <;> (conv_lhs => rw [e]) <;> simp only [e]

/-- The whole flush keeps the canonical form of the table. -/
theorem gtWf_flushAll (s : State) (h : gtWf s.blk.gt) : gtWf (flushAll s).1.blk.gt :=
  flushLoop_induct (fun t _ => gtWf t.blk.gt) (fun _ _ _ _ _ h => gtWf_gtErase _ h) _ _ _ h

/-- The whole flush takes out nothing but the ids between the old cursor and the new one. -/
theorem gtGet_flushAll (s : State) (h : Nat)
    (out : h < s.blk.nextGroup ∨ s.blk.nextGroup + (flushAll s).2 ≤ h) :
    gtGet (flushAll s).1.blk.gt h = gtGet s.blk.gt h := by
  have key := flushLoop_induct
    (fun t n => t.blk.nextGroup = s.blk.nextGroup + n
      ∧ (h < s.blk.nextGroup ∨ s.blk.nextGroup + n ≤ h → gtGet t.blk.gt h = gtGet s.blk.gt h))
    (fun t n payload _ _ ht => by
      refine ⟨?_, fun o => ?_⟩
      · show t.blk.nextGroup + 1 = _
        rw [ht.1]; rfl
      · show gtGet (gtErase t.blk.gt t.blk.nextGroup) h = _
        rw [gtGet_gtErase_other _ _ _ (by have := ht.1; omega)]
        exact ht.2 (by omega))
    s.blk.gt.length 0 s ⟨rfl, fun _ => rfl⟩
  exact key.2 out

/-! ### The erasure code -/

@[simp] theorem length_zeros (n : Nat) : (zeros n).length = n := by simp [zeros]

@[simp] theorem length_xorBytes (a b : Bytes) : (xorBytes a b).length = min a.length b.length := by
  simp [xorBytes]

/-- The `xor` of chunks of one length has that length. -/
theorem length_combine (c mask : Nat) (chunks : List Bytes) (h : ∀ x ∈ chunks, x.length = c) :
    (combine c mask chunks).length = c := by
  unfold combine
  have hl : ∀ x ∈ chunks.zipIdx.filter (fun x => mask.testBit x.2), x.1.length = c := fun x hx =>
    h _ (List.fst_mem_of_mem_zipIdx (List.mem_filter.1 hx).1)
  generalize chunks.zipIdx.filter (fun x => mask.testBit x.2) = l at hl
  have : ∀ acc : Bytes, acc.length = c →
      (l.foldl (fun acc x => xorBytes acc x.1) acc).length = c := by
    induction l with
    | nil => intro acc h; exact h
    | cons x rest ih =>
      intro acc hacc
      refine ih (fun y hy => hl y (List.mem_cons_of_mem _ hy)) _ ?_
      simp [hacc, hl x List.mem_cons_self]
  exact this _ (length_zeros c)

/-- One step of the elimination: the pair joins the basis or leaves all as it was. -/
theorem eliminateStep_cases (k : Nat) (st : Elimination) (x : Symbol) :
    (st.basis.length < k ∧ (eliminateStep k st x).basis = st.basis ++ [x])
    ∨ eliminateStep k st x = st := by
  unfold eliminateStep
  simp only
  split
  · rename_i h; exact .inl ⟨h.1, rfl⟩
  · exact .inr rfl

/-- The basis never has more than K members. -/
theorem length_basis_eliminate_le (k : Nat) (syms : List Symbol) :
    (eliminate k syms).basis.length ≤ k := by
  unfold eliminate
  have : ∀ st : Elimination, st.basis.length ≤ k →
      (syms.foldl (eliminateStep k) st).basis.length ≤ k := by
    induction syms with
    | nil => intro st h; exact h
    | cons x rest ih =>
      intro st h
      refine ih _ ?_
      rcases eliminateStep_cases k st x with ⟨lt, e⟩ | e
      · rw [e]; simp; omega
      · rw [e]; exact h
  exact this _ (Nat.zero_le _)

/-- The members of the basis are among the pairs. -/
theorem mem_of_mem_basis_eliminate {k : Nat} {syms : List Symbol} {x : Symbol}
    (h : x ∈ (eliminate k syms).basis) : x ∈ syms := by
  unfold eliminate at h
  have : ∀ (l : List Symbol) (st : Elimination), x ∈ (l.foldl (eliminateStep k) st).basis →
      x ∈ st.basis ∨ x ∈ l := by
    intro l
    induction l with
    | nil => intro st h; exact .inl h
    | cons y rest ih =>
      intro st h
      rcases ih _ h with h | h
      · rcases eliminateStep_cases k st y with ⟨_, e⟩ | e
        · rw [e, List.mem_append, List.mem_singleton] at h
          rcases h with h | h
          · exact .inl h
          · exact .inr (h ▸ List.mem_cons_self)
        · exact .inl (e ▸ h)
      · exact .inr (List.mem_cons_of_mem _ h)
  simpa using this syms _ h

/-- Sorting keeps the pairs. -/
@[simp] theorem mem_sortSymbols {syms : List Symbol} {x : Symbol} :
    x ∈ sortSymbols syms ↔ x ∈ syms := by simp [sortSymbols]

/-- What `reconstruct` answers has K · C bytes. -/
theorem length_reconstruct {k c : Nat} {syms : List Symbol} {payload : Bytes}
    (hc : ∀ x ∈ syms, x.2.length = c) (h : reconstruct k c syms = some payload) :
    payload.length = k * c := by
  unfold reconstruct at h
  simp only at h
  split at h
  · cases h
  · injection h with h
    subst h
    have hl : ∀ x ∈ ((chosenBasis k syms).basis.map Prod.snd), x.length = c := by
      intro x hx
      obtain ⟨y, hy, rfl⟩ := List.mem_map.1 hx
      exact hc y (mem_sortSymbols.1 (mem_of_mem_basis_eliminate hy))
    rw [List.length_flatMap]
    have : (List.range k).map (fun i => (combine c (inverseRow (chosenBasis k syms).eqs i)
        ((chosenBasis k syms).basis.map Prod.snd)).length) = List.replicate k c := by
      rw [List.eq_replicate_iff]
      refine ⟨by simp, fun n hn => ?_⟩
      obtain ⟨i, _, rfl⟩ := List.mem_map.1 hn
      exact length_combine _ _ _ hl
    rw [this]
    simp

/-! ### Range records -/

@[simp] theorem length_littleEndian64 (n : Nat) : (littleEndian64 n).length = 8 := by
  simp [littleEndian64]

/-- Sixteen bytes per reported group. -/
theorem length_lossRecords (groupSize : Nat) (lost : List Nat) :
    (lossRecords groupSize lost).length = 16 * lost.length := by
  unfold lossRecords
  induction lost with
  | nil => rfl
  | cons g rest ih =>
    rw [List.flatMap_cons, List.length_append, ih, rangeRecord, List.length_append,
      length_littleEndian64, length_littleEndian64, List.length_cons]
    omega

/-! ### One step -/

/-- Every way in which a transfer goes on. -/
theorem runTransfer_next_cases {x : Transfer} {s t : State} (h : runTransfer x s = .next t) :
    (∃ i, decode x = .ok i ∧ exec i s = .next t)
    ∨ (decode x = .error .illegalWord ∧ t = raise .illegalCommand (opField x.word) s) := by
  unfold runTransfer at h
  split at h
  · rename_i i hi
    exact .inl ⟨i, hi, h⟩
  · rename_i err he
    cases err with
    | illegalWord => exact .inr ⟨he, (Host.Outcome.next.inj h).symm⟩
    | transferTooLong => simp [rejectTransfer] at h

/-- Every way in which an abandoned command goes on. -/
theorem abandonCommand_next {made : Nat} {straps : Cfg} {s t : State}
    {o : Host.Outcome State Fault Refusal} (h : abandonCommand made straps s o = .next t) :
    ∃ u, o = .next u ∧ t = abandon made straps s u := by
  cases o with
  | next u => exact ⟨u, rfl, (Host.Outcome.next.inj h).symm⟩
  | fault f => simp [abandonCommand] at h
  | refused r => simp [abandonCommand] at h

/-- Every way in which a step goes on. -/
theorem step_next_cases {s t : State} (h : step s = .next t) :
    (s.env.inbox = [] ∧ t = s)
    ∨ (∃ straps rest, s.env.inbox = .reset straps :: rest ∧ t = resetBlock straps (takeEvent s))
    ∨ (∃ x made straps rest u, s.env.inbox = .resetDuring x made straps :: rest
        ∧ runTransfer x (takeEvent s) = .next u ∧ t = abandon made straps (takeEvent s) u)
    ∨ (∃ x rest, s.env.inbox = .command x :: rest ∧ runTransfer x (takeEvent s) = .next t) := by
  unfold step at h
  split at h
  · rename_i e
    exact .inl ⟨e, (Host.Outcome.next.inj h).symm⟩
  · rename_i straps rest e
    exact .inr (.inl ⟨straps, rest, e, (Host.Outcome.next.inj h).symm⟩)
  · rename_i x made straps rest e
    obtain ⟨u, hu, ht⟩ := abandonCommand_next h
    exact .inr (.inr (.inl ⟨x, made, straps, rest, u, e, hu, ht⟩))
  · rename_i x rest e
    exact .inr (.inr (.inr ⟨x, rest, e, h⟩))

end Sys2Proof.Machine
end

