-- ==== Sys2Proof/Laws/PerInstr.lean ====
section
/-! SUPPORT. Statements for all instructions, one lemma per constructor. -/

namespace Sys2Proof.Laws.RowSelected

/-- The command word of an instruction selects its own row of the opcode map, and the row found first is
that row (R97). -/
def Statement (i : Instr) : Prop :=
  selects i.word i.mnemonic = true ∧ Mnemonic.all.find? (selects i.word) = some i.mnemonic

/-- The second half follows from the first. -/
theorem of_selects {i : Instr} (h : selects i.word i.mnemonic = true) : Statement i :=
  ⟨h, find_selected h⟩

theorem nop (data : Bytes) : Statement (.nop data) := of_selects (by
  show selects (wordOfOp Mnemonic.nop.opcode) .nop = true
  decide)

theorem enc (data : Bytes) : Statement (.enc data) := of_selects (by
  show selects (wordOfOp Mnemonic.enc.opcode) .enc = true
  decide)

theorem dec (data : Bytes) : Statement (.dec data) := of_selects (by
  show selects (wordOfOp Mnemonic.dec.opcode) .dec = true
  decide)

theorem rd (data : Bytes) : Statement (.rd data) := of_selects (by
  show selects (wordOfOp Mnemonic.rd.opcode) .rd = true
  decide)

theorem wr (data : Bytes) : Statement (.wr data) := of_selects (by
  show selects (wordOfOp Mnemonic.wr.opcode) .wr = true
  decide)

theorem goode (data : Bytes) : Statement (.goode data) := of_selects (by
  show selects (wordOfOp Mnemonic.goode.opcode) .goode = true
  decide)

theorem goodd (data : Bytes) : Statement (.goodd data) := of_selects (by
  show selects (wordOfOp Mnemonic.goodd.opcode) .goodd = true
  decide)

theorem finalize (data : Bytes) : Statement (.finalize data) := of_selects (by
  show selects (wordOfOp Mnemonic.finalize.opcode) .finalize = true
  decide)

/-- The bits of the format A word outside its operand fields. -/
theorem wordOfAccept_mask (e : Bool) (g sid : Id16) :
    wordOfAccept 0x30#8 e g sid &&& 0xFFFEFFFF00000000#64 = 0x3000000000000000#64 := by
  unfold wordOfAccept
  apply BitVec.eq_of_getLsbD_eq
  intro i hi
  simp only [BitVec.getLsbD_and, BitVec.getLsbD_append, BitVec.getLsbD_ofBool]
  interval_cases i <;> simp

/-- The bits of the format R word outside its operand field. -/
theorem wordOfReg_mask (r : BitVec 8) :
    wordOfReg 0x40#8 r &&& 0xFFFFFFFFFFFFFF00#64 = 0x4000000000000000#64 := by
  unfold wordOfReg
  apply BitVec.eq_of_getLsbD_eq
  intro i hi
  simp only [BitVec.getLsbD_and, BitVec.getLsbD_append]
  interval_cases i <;> simp

theorem accept (e : Bool) (g sid : Id16) (data : Bytes) : Statement (.accept e g sid data) :=
  of_selects (beq_iff_eq.2 (wordOfAccept_mask e g sid))

theorem rdreg (r : BitVec 8) (data : Bytes) : Statement (.rdreg r data) :=
  of_selects (beq_iff_eq.2 (wordOfReg_mask r))

end Sys2Proof.Laws.RowSelected
end

