-- ==== Sys2Proof/Machine/AssemblyText.lean ====
section
/-! DEFINITION. Reading a line of a command sequence from its characters (R103, R104). A line is held as
the list of its characters. What R103 leaves open about a line is settled in log 8. -/

namespace Sys2Proof.Machine

/-- What a line of text is. -/
inductive ParsedLine where
  /-- Nothing but spaces and a comment. -/
  | blank
  /-- A command or a pseudo-command. -/
  | line (l : AsmLine)
  /-- None of the forms of R103 and R104. -/
  | malformed
deriving DecidableEq, Repr

/-- The characters that separate. -/
def isBlankChar (c : Char) : Bool := c == ' ' || c == '\t'

/-- Without separating characters at either end. -/
def trimChars (l : List Char) : List Char :=
  ((l.dropWhile isBlankChar).reverse.dropWhile isBlankChar).reverse

/-- Without its comment, from `;` on (R103). -/
def stripComment (l : List Char) : List Char := l.takeWhile (· != ';')

/-- The parts between the separators; one part where there is none. -/
def splitChars (sep : Char) : List Char → List (List Char)
  | [] => [[]]
  | c :: rest =>
    match splitChars sep rest with
    | part :: parts => if c = sep then [] :: part :: parts else (c :: part) :: parts
    | [] => [[c]]

/-- A hexadecimal digit. -/
def hexDigit (c : Char) : Option Nat :=
  if '0'.toNat ≤ c.toNat ∧ c.toNat ≤ '9'.toNat then some (c.toNat - '0'.toNat)
  else if 'A'.toNat ≤ c.toNat ∧ c.toNat ≤ 'F'.toNat then some (c.toNat - 'A'.toNat + 10)
  else if 'a'.toNat ≤ c.toNat ∧ c.toNat ≤ 'f'.toNat then some (c.toNat - 'a'.toNat + 10)
  else none

/-- Digits to a base, most significant first, behind a value already read. -/
def readDigits (base acc : Nat) : List Char → Option Nat
  | [] => some acc
  | c :: rest =>
    match hexDigit c with
    | some d => if d < base then readDigits base (base * acc + d) rest else none
    | none => none

/-- A number, decimal or `0x` hexadecimal (R103). -/
def readNumber : List Char → Option Nat
  | [] => none
  | '0' :: 'x' :: c :: rest => readDigits 16 0 (c :: rest)
  | c :: rest => readDigits 10 0 (c :: rest)

/-- A number that fits its field. -/
def readField (width : Nat) (l : List Char) : Option (BitVec width) :=
  match readNumber (trimChars l) with
  | some n => if n < 2 ^ width then some (BitVec.ofNat width n) else none
  | none => none

/-- Hexadecimal digit pairs, byte 0 first, with spaces between bytes where wanted (R103). DESIGN CHOICE
(log 8): where there are no pairs the bytes are none; R103 does not say whether a data operand, or one side
of a concatenation, may be empty. -/
def readHexPairs : List Char → Option Bytes
  | [] => some []
  | [c] => if isBlankChar c then some [] else none
  | high :: low :: rest =>
    if isBlankChar high then readHexPairs (low :: rest)
    else
      match hexDigit high, hexDigit low, readHexPairs rest with
      | some h, some l, some bytes => some (BitVec.ofNat 8 (16 * h + l) :: bytes)
      | _, _, _ => none

/-- The characters of `n)` behind `zeros(`. -/
def readZeros (l : List Char) : Option DataOperand :=
  match l.reverse with
  | ')' :: body => (readNumber (trimChars body.reverse)).map .zeros
  | _ => none

/-- One part of a data operand (R103). -/
def readDataPart (l : List Char) : Option DataOperand :=
  match trimChars l with
  | 'z' :: 'e' :: 'r' :: 'o' :: 's' :: '(' :: rest => readZeros rest
  | part => (readHexPairs part).map .hex

/-- Parts of a data operand, concatenated (R103). -/
def readDataParts : List (List Char) → Option DataOperand
  | [] => none
  | [part] => readDataPart part
  | part :: parts =>
    match readDataPart part, readDataParts parts with
    | some a, some b => some (.cat a b)
    | _, _ => none

/-- A data operand (R103). -/
def readData (l : List Char) : Option DataOperand := readDataParts (splitChars '‖' l)

/-- `MNEMONIC` alone. -/
def formNone (line : AsmLine) (operands : List Char) : Option AsmLine :=
  if operands = [] then some line else none

/-- `MNEMONIC <data>`. -/
def formData (line : DataOperand → AsmLine) (operands : List Char) : Option AsmLine :=
  (readData operands).map line

/-- `MNEMONIC <g>, <s>, <data>`. -/
def formChunk (line : Id16 → Id16 → DataOperand → AsmLine) (operands : List Char) : Option AsmLine :=
  match splitChars ',' operands with
  | [g, s, d] =>
    match readField 16 g, readField 16 s, readData d with
    | some g, some s, some d => some (line g s d)
    | _, _, _ => none
  | _ => none

/-- `MNEMONIC <g>, <s>`. -/
def formIds (line : Id16 → Id16 → AsmLine) (operands : List Char) : Option AsmLine :=
  match splitChars ',' operands with
  | [g, s] =>
    match readField 16 g, readField 16 s with
    | some g, some s => some (line g s)
    | _, _ => none
  | _ => none

/-- `MNEMONIC <r>`. -/
def formReg (line : BitVec 8 → AsmLine) (operands : List Char) : Option AsmLine :=
  (readField 8 operands).map line

/-- A line by its mnemonic (R103, R104); the operands come without separating characters at their ends. -/
def readForm (mnemonic operands : List Char) : Option AsmLine :=
  match mnemonic with
  | ['N', 'O', 'P'] => formNone .nop operands
  | ['E', 'N', 'C'] => formData .enc operands
  | ['D', 'E', 'C'] => formData .dec operands
  | ['R', 'D'] => formNone .rd operands
  | ['W', 'R'] => formData .wr operands
  | ['G', 'O', 'O', 'D', 'E'] => formNone .goode operands
  | ['G', 'O', 'O', 'D', 'D'] => formNone .goodd operands
  | ['A', 'C', 'C', 'E', 'P', 'T'] => formChunk .accept operands
  | ['A', 'C', 'C', 'E', 'P', 'T', '.', 'E'] => formChunk .acceptE operands
  | ['F', 'I', 'N', 'A', 'L', 'I', 'Z', 'E'] => formNone .finalize operands
  | ['R', 'D', 'R', 'E', 'G'] => formReg .rdreg operands
  | ['E', 'R', 'A', 'S', 'E'] => formIds .erase operands
  | ['R', 'D', 'S', 'T', 'A', 'T', 'U', 'S'] => formNone .rdstatus operands
  | ['R', 'D', 'B', 'A', 'D'] => formNone .rdbad operands
  | ['R', 'D', 'P', 'R', 'O', 'G', 'R', 'E', 'S', 'S'] => formNone .rdprogress operands
  | _ => none

/-- Reading one line (R103). -/
def readLine (text : List Char) : ParsedLine :=
  let body := trimChars (stripComment text)
  if body = [] then .blank
  else
    match readForm (body.takeWhile fun c => !isBlankChar c)
        (trimChars (body.dropWhile fun c => !isBlankChar c)) with
    | some l => .line l
    | none => .malformed

end Sys2Proof.Machine
end

