-- ==== Sys2Proof/Tests/Slice0.lean ====
section
/-! SUPPORT. Tests of the model. Expected values come from spec/95_test_vectors.md and from the rules
named; the witnesses show that the hypotheses of the statements can be met together. -/

open Sys2Proof Sys2Proof.Machine

namespace Sys2Proof.Tests

/- One theorem at a time: side by side, the kernel evaluations below hold more thread stacks than the
memory limit of the check allows. -/
set_option Elab.async false

/-! ### Helpers -/

/-- The machine after a reset that samples these straps. -/
def fresh (cfg : Cfg) : State := { State.reset with blk := Block.afterReset cfg (strapsValid cfg) }

/-- A state in which the source answers this to the next `SrcRead`. -/
def withSource (a : SrcAnswer) (s : State) : State := { s with env := { s.env with srcAnswers := [a] } }

/-- A state in which the stage answers these bits to the coming `DcpPush` calls. -/
def withStage (l : List Bool) (s : State) : State := { s with env := { s.env with dcpAnswers := l } }

/-- The state an outcome goes on with. -/
def goesOn : Host.Outcome State Fault Refusal → Option State
  | .next t => some t
  | .fault _ => none
  | .refused _ => none

/-- `RSP0`, `RSP1` and the data of the last response. -/
def lastResponse (o : Host.Outcome State Fault Refusal) : Option (Word64 × Word64 × Bytes) :=
  (goesOn o).bind fun t => t.env.outbox.getLast?.map fun r => (r.rsp0, r.rsp1, r.rdata)

/-- The calls made. -/
def callsOf (o : Host.Outcome State Fault Refusal) : Option (List Call) :=
  (goesOn o).map fun t => t.env.calls

/-- One register of the next state. -/
def register (r : BitVec 8) (o : Host.Outcome State Fault Refusal) : Option Word64 :=
  (goesOn o).bind fun t => regRead t.blk r

/-- P = 15 with B = 15: the invalid configuration of program P4. -/
def badStraps : Cfg := { Config.straps with p := 15#8 }

/-- P = 0: the configuration of V4. -/
def plainStraps : Cfg := { Config.straps with p := 0#8 }

/-- K = 1, C = 1: the configuration of V48 and V49. -/
def tinyStraps : Cfg := { Config.straps with k := 1#16, c := 1#16 }

/-- B = 4, P = 2, BCH: the configuration of V20 to V25. -/
def bchStraps : Cfg := { Config.straps with b := 4#8, p := 2#8, codecKind := .bch }

/-- The codeword of V10. -/
def codeword10 : Bytes := [0, 1, 2, 3, 4, 5, 6, 7, 8, 9, 0x0A, 0x86, 0xBF, 0xE6, 0x0E]

/-- The payload of V10. -/
def payload10 : Bytes := [0, 1, 2, 3, 4, 5, 6, 7, 8, 9, 0x0A]

/-- The uncorrectable word of V13. -/
def word13 : Bytes := [1, 1, 2, 3, 4, 7, 6, 7, 8, 9, 0x0A, 0x86, 0xBB, 0xE6, 0x0E]

/-- Program P2 before its command 7, with the stage's two answers written down. -/
def p2 : State :=
  withStage [false, false]
    { fresh Config.straps with blk := { (fresh Config.straps).blk with
        high := 2
        gt := [(0, .collecting [(1#16, [5, 6, 7, 8]), (3#16, [5, 6, 7, 8])]),
               (1, .resolved [0x11, 0x12, 0x13, 0x14, 0x15, 0x16, 0x17, 0x18])] } }

/-- Program P3 before its command 6, with the stage's answer written down. -/
def p3 : State :=
  withStage [true]
    { fresh Config.straps with blk := { (fresh Config.straps).blk with
        high := 4
        gt := [(0, .collecting [(0#16, [1, 2, 3, 4])]),
               (1, .resolved [0x11, 0x12, 0x13, 0x14, 0x15, 0x16, 0x17, 0x18]),
               (3, .collecting [(7#16, [0xAA, 0xBB, 0xCC, 0xDD])])] } }

/-! ### WellFormed: a term that each check refuses -/

/-- R61: a transfer carries at most 65535 data bytes. -/
theorem test_overlong_data_is_ill_formed : (Instr.wr (zeros 65536)).wellFormed = false := by
  rw [Instr.wellFormed, Instr.data, dataFits, length_zeros]
  decide

theorem test_longest_data_is_well_formed : (Instr.wr (zeros 65535)).wellFormed = true := by
  rw [Instr.wellFormed, Instr.data, dataFits, length_zeros]
  decide

/-! ### Decode: words written out from R91, R92 and R97 (V53) -/

theorem test_decode_nop : decodeTableWord 64 0x0000000000000000 = some (.nop []) := by decide
theorem test_decode_enc : decodeTableWord 64 0x1000000000000000 = some (.enc []) := by decide
theorem test_decode_dec : decodeTableWord 64 0x1100000000000000 = some (.dec []) := by decide
theorem test_decode_rd : decodeTableWord 64 0x2000000000000000 = some (.rd []) := by decide
theorem test_decode_wr : decodeTableWord 64 0x2100000000000000 = some (.wr []) := by decide
theorem test_decode_goode : decodeTableWord 64 0x2200000000000000 = some (.goode []) := by decide
theorem test_decode_goodd : decodeTableWord 64 0x2300000000000000 = some (.goodd []) := by decide
theorem test_decode_accept :
    decodeTableWord 64 0x3000000000020005 = some (.accept false 2#16 5#16 []) := by decide
/-- Every operand bit of format A set. -/
theorem test_decode_accept_all_ones :
    decodeTableWord 64 0x30010000FFFFFFFE = some (.accept true 0xFFFF#16 0xFFFE#16 []) := by decide
theorem test_decode_finalize : decodeTableWord 64 0x3100000000000000 = some (.finalize []) := by decide
theorem test_decode_rdreg : decodeTableWord 64 0x40000000000000FE = some (.rdreg 0xFE#8 []) := by decide
/-- R98: a reserved bit set, and an opcode of no row. -/
theorem test_decode_reserved :
    decodeTableWord 64 0x3002000000020005 = none ∧ decodeTableWord 64 0x4000000000000100 = none
      ∧ decodeTableWord 64 0x9900000000000000 = none ∧ decodeTableWord 64 0x2000000000000001 = none := by
  decide

/-- R103 and V53, with the data operand of the second example of R103. -/
theorem test_assembly :
    AsmLine.transfer 4 (.accept 2#16 5#16 (.cat (.hex [0xDE, 0xAD]) (.zeros 2)))
        = ⟨0x3000000000020005#64, [0xDE, 0xAD, 0, 0]⟩
      ∧ AsmLine.transfer 4 (.erase 2#16 5#16) = ⟨0x3001000000020005#64, [0, 0, 0, 0]⟩ := by decide

/-- R103: a line of text, with a comment. -/
theorem test_read_line :
    readLine ['R', 'D', 'R', 'E', 'G', ' ', ' ', '0', 'x', '0', 'E', ' ', ';', 'r']
      = .line (.rdreg 0x0E#8) := by decide

/-- R103: a data operand, as a concatenation. -/
theorem test_read_data :
    readLine ['W', 'R', ' ', 'D', 'E', ' ', 'a', 'd', ' ', '‖', ' ',
        'z', 'e', 'r', 'o', 's', '(', '2', ')']
      = .line (.wr (.cat (.hex [0xDE, 0xAD]) (.zeros 2))) := by decide

/-- Log 8: an empty data operand is no bytes, a missing number or comma is malformed. -/
theorem test_read_empty_data :
    readLine ['E', 'N', 'C'] = .line (.enc (.hex []))
      ∧ readLine ['A', 'C', 'C', 'E', 'P', 'T', ' ', '1', ',', ' ', '2', ',']
        = .line (.accept 1#16 2#16 (.hex []))
      ∧ readLine ['A', 'C', 'C', 'E', 'P', 'T', ' ', '1', ',', ' ', '2'] = .malformed
      ∧ readLine ['R', 'D', 'R', 'E', 'G'] = .malformed := by decide

/-! ### The fields and the codes -/

/-- V12: the generator polynomial for P = 4 (R123). -/
theorem test_rs_generator : rsGenerator 4 = [0x01, 0x1E, 0xD8, 0xCE, 0x95] := by decide +kernel

/-- V20: g_1 is 0x805, t = 1 and r_g = 11 for P = 2 (R142). -/
theorem test_bch_parameters :
    bchBound 2 = 1 ∧ bchParityBits 2 = 11
      ∧ bchGenerator 2 = [1, 0, 0, 0, 0, 0, 0, 0, 0, 1, 0, 1] := by decide +kernel

/-- The row P = 32 of the table of R142 (V3). -/
theorem test_bch_bound_32 : bchBound 32 = 23 ∧ bchParityBits 32 = 253 := by decide +kernel

/-- V12: syndromes, and the locator found (R131, R132). -/
theorem test_syndromes_and_locator :
    (rsCode 15 4).syndromes [0, 1, 0xFD, 3, 4, 5, 6, 7, 8, 0, 0x0A, 0x86, 0xBF, 0xE6, 0x0E]
        = [0x35, 0x8C, 0x6B, 0xC5]
      ∧ (berlekampMassey gf256 [0x35, 0x8C, 0x6B, 0xC5]).lam = [0x01, 0xFD, 0xDE] := by
  decide +kernel

/-- V16: a word nearer to another codeword decodes to that one's payload (R130). -/
theorem test_miscorrection :
    rsDecode 15 2 [0, 0, 0, 0, 0, 0, 0, 0, 0, 0, 0, 0, 0, 6, 8]
      = some [0, 0, 0, 0, 0, 0, 0, 0, 0, 0, 0, 0, 1] := by decide +kernel

/-- V20, V21, V22, V23, V25. -/
theorem test_bch_words :
    bchEncode 4 2 [0xA5, 0x3C] = [0xA5, 0x3C, 0x12, 0x40]
      ∧ bchDecode 4 2 [0xE5, 0x3C, 0x12, 0x40] = some [0xA5, 0x3C]
      ∧ bchDecode 4 2 [0xE5, 0x3D, 0x12, 0x40] = none
      ∧ bchDecode 4 2 [0xA5, 0x3C, 0x12, 0x5F] = some [0xA5, 0x3C]
      ∧ bchDecode 4 2 [0x25, 0x7C, 0x12, 0x40] = some [0x25, 0x6C] := by decide +kernel

/-- V40: rows, as numbers whose bit i is element i (R202). -/
theorem test_rows :
    (List.range 12).map (rowOf 3) = [1, 2, 4, 1, 2, 3, 4, 5, 6, 7, 1, 2]
      ∧ rowOf 16 65535 = 0xFFF0 ∧ rowOf 17 65535 = 0x0FFEF ∧ rowOf 1 7 = 1 := by decide +kernel

/-- V41: valid symbols (R203). -/
theorem test_valid_symbols :
    (List.range 11).map (validSymbol 3 2 [[0x11, 0x22], [0x33, 0x44], [0x55, 0x66]])
      = [[0x11, 0x22], [0x33, 0x44], [0x55, 0x66], [0x11, 0x22], [0x33, 0x44], [0x22, 0x66],
         [0x55, 0x66], [0x44, 0x44], [0x66, 0x22], [0x77, 0x00], [0x11, 0x22]] := by decide +kernel

/-- V42, V43: three independent symbols reconstruct, three dependent ones do not (R205). -/
theorem test_reconstruct :
    reconstruct 3 2 [(9#16, [0x77, 0x00]), (3#16, [0x11, 0x22]), (5#16, [0x22, 0x66])]
        = some [0x11, 0x22, 0x33, 0x44, 0x55, 0x66]
      ∧ reconstruct 3 2 [(3#16, [0x11, 0x22]), (4#16, [0x33, 0x44]), (5#16, [0x22, 0x66])] = none := by
  decide +kernel

/-! ### One step of each command -/

/-- P4, command 9. -/
theorem test_nop : lastResponse (exec (.nop []) (fresh badStraps)) = some (0#64, 0#64, []) := by
  decide +kernel

/-- V51 and the second part of P4: the refused values are shown. -/
theorem test_rdreg_configuration :
    lastResponse (exec (.rdreg 1#8 []) (fresh badStraps))
      = some (0x4000000000000000#64, 0x0F0F#64, []) := by decide +kernel

/-- P4, command 4. -/
theorem test_rdreg_missing :
    lastResponse (exec (.rdreg 0x0F#8 []) State.reset)
      = some (0x4002000000000000#64, 0#64, []) := by decide +kernel

/-- V10. -/
theorem test_enc :
    lastResponse (exec (.enc payload10) State.reset)
      = some (0x100000000000000F#64, 0x0F#64, codeword10) := by decide +kernel

/-- P4, command 8. -/
theorem test_enc_too_long :
    lastResponse (exec (.enc (zeros 12)) State.reset)
      = some (0x1001000000000000#64, 0#64, []) := by decide +kernel

/-- V12: two errors, in bytes 2 and 9. -/
theorem test_dec :
    lastResponse (exec (.dec [0, 1, 0xFD, 3, 4, 5, 6, 7, 8, 0, 0x0A, 0x86, 0xBF, 0xE6, 0x0E])
        State.reset)
      = some (0x110000000000000B#64, 1#64, payload10) := by decide +kernel

/-- V13: failure is no exception. -/
theorem test_dec_failure :
    lastResponse (exec (.dec word13) State.reset)
      = some (0x1100000000000000#64, 0#64, []) := by decide +kernel

/-- V30: a short read. -/
theorem test_rd_short :
    lastResponse (exec (.rd []) (withSource (.bytes [0xAA, 0xBB, 0xCC]) State.reset))
      = some (0x200000000000000F#64, 0x0F#64,
          [0xAA, 0xBB, 0xCC, 0, 0, 0, 0, 0, 0, 0, 0, 0xF9, 0xA9, 0x44, 0x17]) := by decide +kernel

/-- V31: the source answers -1. -/
theorem test_rd_exhausted :
    lastResponse (exec (.rd []) (withSource (.ended 1) State.reset))
        = some (0x2000000000000000#64, 0xFFFFFFFFFFFFFFFF#64, [])
      ∧ register 4#8 (exec (.rd []) (withSource (.ended 1) State.reset)) = some 0x05#64 := by
  decide +kernel

/-- P1, command 3: bytes 1 and 13 wrong. -/
theorem test_wr_corrected :
    lastResponse (exec (.wr [0x10, 0xEE, 0x12, 0x13, 0x14, 0x15, 0x16, 0x17, 0x18, 0x19, 0x1A, 0xAB,
        0x4D, 0x57, 0x12]) State.reset)
      = some (0x2100000000000000#64, 0x00000000000B0001#64, []) := by decide +kernel

/-- V13 handed to `WR`: the BadChunk marker, `LAST_BAD`, `STATUS` = 0x27 (P1, commands 5 and 6). -/
theorem test_wr_bad :
    callsOf (exec (.wr word13) State.reset) = some [.sinkWrite [0, 0, 0, 0, 0, 0, 0, 0, 0, 0, 0]]
      ∧ register 4#8 (exec (.wr word13) State.reset) = some 0x27#64 := by decide +kernel

/-- V31: after end of stream `GOODE` answers 0 whatever the source says, and still asks it. -/
theorem test_goode_after_end :
    lastResponse (exec (.goode [])
        { blk := { State.reset.blk with encGood := false }
          env := { World.quiet with srcOkAnswers := [true] } })
      = some (0x2200000000000000#64, 0#64, []) := by decide +kernel

/-- V34. -/
theorem test_goodd :
    lastResponse (exec (.goodd [])
        { State.reset with env := { World.quiet with sinkOkAnswers := [true] } })
      = some (0x2300000000000000#64, 1#64, []) := by decide +kernel

/-- P2, command 7: the dependent symbol is passed over, two groups are flushed in order. -/
theorem test_accept_resolves_and_flushes :
    lastResponse (exec (.accept false 0#16 4#16 [4, 4, 4, 0x0C]) p2)
        = some (0x3000000000000000#64, 0x0000020000000300#64, [])
      ∧ callsOf (exec (.accept false 0#16 4#16 [4, 4, 4, 0x0C]) p2)
        = some [.dcpPush 0 [1, 2, 3, 4, 5, 6, 7, 8] false,
                .dcpPush 8 [0x11, 0x12, 0x13, 0x14, 0x15, 0x16, 0x17, 0x18] false] := by
  decide +kernel

/-- P2, command 5: a duplicate. -/
theorem test_accept_duplicate :
    lastResponse (exec (.accept false 0#16 1#16 [0xFF, 0xFF, 0xFF, 0xFF]) p2)
      = some (0x3000000000000000#64, 1#64, []) := by decide +kernel

/-- P3, command 6. -/
theorem test_finalize :
    lastResponse (exec (.finalize []) p3)
      = some (0x3100000000000030#64, 0x0000010100000003#64,
          [0, 0, 0, 0, 0, 0, 0, 0, 8, 0, 0, 0, 0, 0, 0, 0,
           0x10, 0, 0, 0, 0, 0, 0, 0, 0x18, 0, 0, 0, 0, 0, 0, 0,
           0x18, 0, 0, 0, 0, 0, 0, 0, 0x20, 0, 0, 0, 0, 0, 0, 0]) := by decide +kernel

/-- P3, the end state: `STATUS`, `BYTES_RECOVERED`, `CNT_DCP_FAULT`. -/
theorem test_finalize_registers :
    register 4#8 (exec (.finalize []) p3) = some 0x14F#64
      ∧ register 9#8 (exec (.finalize []) p3) = some 8#64
      ∧ register 0x0B#8 (exec (.finalize []) p3) = some 1#64 := by decide +kernel

/-- P4, command 1: a word of no row, through the port. -/
theorem test_step_illegal :
    lastResponse (step (State.reset.withFetchWord 64 0x9900000000000000))
        = some (0x9902000000000000#64, 0#64, [])
      ∧ register 5#8 (step (State.reset.withFetchWord 64 0x9900000000000000))
        = some 0x19902#64 := by decide +kernel

/-- R300: a reset during `FINALIZE`, after its one push: the push stays done, no response is given. -/
theorem test_reset_during_command :
    (goesOn (step { p3 with env := { p3.env with
        inbox := [.resetDuring ⟨0x3100000000000000#64, []⟩ 1 Config.straps] } })).map
      (fun t => (t.blk, t.env.outbox, t.env.calls, t.env.dcpAnswers))
      = some (State.reset.blk, [],
          [.dcpPush 8 [0x11, 0x12, 0x13, 0x14, 0x15, 0x16, 0x17, 0x18] true], []) := by
  decide +kernel

/-- V51: `STATUS` right after reset. -/
theorem test_reset_status : regRead State.reset.blk 4#8 = some 7#64 := by decide

/-- The group table's reads and writes. -/
theorem test_table :
    gtSet [(1, .resolved []), (4, .resolved [7])] 2 (.collecting [])
        = [(1, .resolved []), (2, .collecting []), (4, .resolved [7])]
      ∧ gtErase [(1, .resolved []), (4, .resolved [7])] 1 = [(4, .resolved [7])] := by decide

/-! ### Witnesses: the hypotheses of the statements can be met -/

/-- The session of P2 after its end. -/
def ended (summary : Summary) : State :=
  { fresh Config.straps with blk := { (fresh Config.straps).blk with
      phase := .finalized, summary := summary, nextGroup := 2, high := 2 } }

/-- V47: `G_MAX` = 1, `S_MAX` = 2, one group with two symbols. -/
def full : State :=
  { fresh { Config.straps with gMax := 1#17, sMax := 2#17 } with blk :=
      { (fresh { Config.straps with gMax := 1#17, sMax := 2#17 }).blk with
        high := 2
        gt := [(1, .collecting [(0#16, [0x11, 0x12, 0x13, 0x14]), (2#16, [0x11, 0x12, 0x13, 0x14])])] } }

/-- K = 1, C = 1, every group below 65535 flushed, the last one RESOLVED. -/
def atLastGroup : State :=
  { fresh tinyStraps with blk := { (fresh tinyStraps).blk with
      nextGroup := 65535, high := 65536, gt := [(65535, .resolved [1])] } }

/-- One group flushed. -/
def oneFlushed : State :=
  { fresh Config.straps with blk := { (fresh Config.straps).blk with
      nextGroup := 1, high := 1, cntGroupsFlushed := 1, bytesRecovered := 8 } }

theorem reset_inv : BlockInv State.reset.blk := by
  constructor <;> first | decide | (unfold gtWf; decide) | exact fun x hx => nomatch hx

theorem bad_inv : BlockInv (fresh badStraps).blk := by
  constructor <;> first | decide | (unfold gtWf; decide) | exact fun x hx => nomatch hx

theorem plain_inv : BlockInv (fresh plainStraps).blk := by
  constructor <;> first | decide | (unfold gtWf; decide) | exact fun x hx => nomatch hx

theorem tiny_inv : BlockInv (fresh tinyStraps).blk := by
  constructor <;> first | decide | (unfold gtWf; decide) | exact fun x hx => nomatch hx

theorem oneFlushed_inv : BlockInv oneFlushed.blk := by
  constructor <;> first | decide | (unfold gtWf; decide) | exact fun x hx => nomatch hx

theorem p2_inv : BlockInv p2.blk := by
  constructor
  case entries_ok =>
    exact List.forall_mem_cons.2
      ⟨show _ ∧ _ ∧ _ ∧ _ ∧ _ by decide +kernel, List.forall_mem_cons.2 ⟨rfl, fun x hx => nomatch hx⟩⟩
  all_goals first | decide | (unfold gtWf; decide)

theorem p3_inv : BlockInv p3.blk := by
  constructor
  case entries_ok =>
    exact List.forall_mem_cons.2
      ⟨show _ ∧ _ ∧ _ ∧ _ ∧ _ by decide +kernel, List.forall_mem_cons.2 ⟨rfl, List.forall_mem_cons.2
        ⟨show _ ∧ _ ∧ _ ∧ _ ∧ _ by decide +kernel, fun x hx => nomatch hx⟩⟩⟩
  all_goals first | decide | (unfold gtWf; decide)

/-- V10, read back. -/
theorem decodes10 : codecDecode Config.straps codeword10 = some payload10 := by decide +kernel

/-- V13. -/
theorem fails13 : codecDecode Config.straps word13 = none := by decide +kernel

theorem witness_DecodeOfEncode :
    (Instr.accept true 0xFFFF#16 0xFFFF#16 (zeros 65535)).wellFormed = true := by
  rw [Instr.wellFormed, Instr.data, dataFits, length_zeros]
  decide

theorem witness_EncodeOfDecode :
    decode ⟨0x30010000FFFFFFFF#64, [7]⟩ = .ok (.accept true 0xFFFF#16 0xFFFF#16 [7]) :=
  decode_of_selects (row := .accept) rfl rfl

theorem witness_WorkedEncodings : (zeros 65535).length ≤ 65535 := by
  have h := length_zeros 65535
  omega

theorem witness_StepRunsDecodedCommand :
    (offer ⟨0x2000000000000000#64, []⟩ State.reset).env.inbox
        = .command ⟨0x2000000000000000#64, []⟩ :: []
      ∧ decode ⟨0x2000000000000000#64, []⟩ = .ok (.rd []) :=
  ⟨rfl, decode_of_selects (row := .rd) rfl rfl⟩

theorem witness_OnlyOverlongTransferStops :
    State.reset.env.inbox = []
      ∧ (offer ⟨0#64, zeros 65536⟩ State.reset).env.inbox = .command ⟨0#64, zeros 65536⟩ :: []
      ∧ 65535 < (zeros 65536).length := by
  rw [length_zeros]
  exact ⟨rfl, rfl, by decide⟩

theorem witness_ResetSetsEveryItem :
    ({ p2 with env := { p2.env with inbox := [.reset badStraps] } } : State).env.inbox
      = .reset badStraps :: [] := rfl

theorem witness_ResetAbandonsCommand :
    ({ p3 with env := { p3.env with
        inbox := [.resetDuring ⟨0x3100000000000000#64, []⟩ 1 badStraps] } } : State).env.inbox
      = .resetDuring ⟨0x3100000000000000#64, []⟩ 1 badStraps :: [] ∧ ([] : Bytes).length ≤ 65535 :=
  ⟨rfl, by decide⟩

theorem witness_IllegalCommandIsRaised :
    (∀ w, w = 0x3002000000020005#64 ∨ w = 0x4000000000000100#64 ∨ w = 0x0000000000000001#64
        ∨ w = 0x9900000000000000#64 →
      w ≠ 0x0000000000000000#64 ∧ w ≠ 0x1000000000000000#64 ∧ w ≠ 0x1100000000000000#64
      ∧ w ≠ 0x2000000000000000#64 ∧ w ≠ 0x2100000000000000#64 ∧ w ≠ 0x2200000000000000#64
      ∧ w ≠ 0x2300000000000000#64 ∧ w &&& 0xFFFEFFFF00000000#64 ≠ 0x3000000000000000#64
      ∧ w ≠ 0x3100000000000000#64 ∧ w &&& 0xFFFFFFFFFFFFFF00#64 ≠ 0x4000000000000000#64
      ∧ (offer ⟨w, [0]⟩ State.reset).env.inbox = .command ⟨w, [0]⟩ :: [])
    ∧ 0x0E < (0x0F#8).toNat := by
  refine ⟨fun w hw => ?_, by decide⟩
  rcases hw with rfl | rfl | rfl | rfl <;>
    exact ⟨by decide, by decide, by decide, by decide, by decide, by decide, by decide, by decide,
      by decide, by decide, rfl⟩

theorem witness_FirstFailingCheckRaises :
    FirstFailure (.rdreg 0x0F#8 [0]) (fresh badStraps).blk (some .illegalCommand)
      ∧ FirstFailure (.enc (zeros 12)) (fresh badStraps).blk (some .cfgInvalid)
      ∧ FirstFailure (.enc (zeros 12)) State.reset.blk (some .invalidInput)
      ∧ FirstFailure (.nop [0]) (fresh badStraps).blk (some .invalidInput)
      ∧ FirstFailure (.rdreg 0x0E#8 [0]) State.reset.blk (some .invalidInput) := by
  unfold FirstFailure
  refine ⟨rfl, ⟨rfl, rfl, rfl⟩, ⟨rfl, .inr rfl, ?_⟩, ⟨rfl, .inl rfl, ?_⟩, ⟨rfl, .inl rfl, ?_⟩⟩ <;>
    (unfold admitsLength; decide)

theorem witness_PassedChecksRaiseNothing :
    FirstFailure (.enc (zeros 11)) State.reset.blk none
      ∧ FirstFailure (.dec (zeros 15)) State.reset.blk none
      ∧ FirstFailure (.accept true 0#16 0#16 (zeros 4)) State.reset.blk none
      ∧ FirstFailure (.nop []) (fresh badStraps).blk none
      ∧ FirstFailure (.wr (zeros 20)) (fresh plainStraps).blk none := by
  unfold FirstFailure
  refine ⟨⟨rfl, .inr rfl, ?_⟩, ⟨rfl, .inr rfl, ?_⟩, ⟨rfl, .inr rfl, ?_⟩, ⟨rfl, .inl rfl, ?_⟩,
    ⟨rfl, .inr rfl, ?_⟩⟩ <;> (unfold admitsLength; decide)

theorem witness_OneResponsePerCommand :
    BlockInv (offer ⟨0x9900000000000000#64, [0]⟩ p2).blk
      ∧ (offer ⟨0x9900000000000000#64, [0]⟩ p2).env.inbox
          = .command ⟨0x9900000000000000#64, [0]⟩ :: []
      ∧ ([0] : Bytes).length ≤ 65535 := ⟨p2_inv, rfl, by decide⟩

theorem witness_NopOnlyAnswers : ([0] : Bytes) ≠ [] := by decide

theorem witness_RdregReturnsRegister :
    (0x0E#8).toNat ≤ 0x0E ∧ 0x0E < (0x0F#8).toNat ∧ 0x0E < (0xFF#8).toNat ∧ ([0] : Bytes) ≠ [] := by
  decide

theorem witness_CounterAndCursorRegisters : BlockInv p2.blk ∧ BlockInv p3.blk := ⟨p2_inv, p3_inv⟩

theorem witness_EncReturnsCodeword :
    (BlockInv State.reset.blk ∧ State.reset.blk.cfgOk = true ∧ (zeros 11).length ≤ 65535
      ∧ (zeros 11).length ≤ State.reset.blk.cfg.bufferSize - State.reset.blk.cfg.parity)
    ∧ (BlockInv (fresh plainStraps).blk ∧ (fresh plainStraps).blk.cfgOk = true
      ∧ (fresh plainStraps).blk.cfg.parity = 0)
    ∧ (fresh badStraps).blk.cfgOk = false
    ∧ (State.reset.blk.cfg.parity ≠ 0
      ∧ State.reset.blk.cfg.bufferSize - State.reset.blk.cfg.parity < (zeros 12).length) :=
  ⟨⟨reset_inv, by decide⟩, ⟨plain_inv, by decide⟩, by decide⟩

theorem witness_DecReturnsPayloadOrFailure :
    (BlockInv State.reset.blk ∧ State.reset.blk.cfgOk = true
      ∧ codeword10.length = State.reset.blk.cfg.bufferSize
      ∧ codecDecode State.reset.blk.cfg codeword10 = some payload10)
    ∧ (word13.length = State.reset.blk.cfg.bufferSize
      ∧ codecDecode State.reset.blk.cfg word13 = none)
    ∧ (fresh badStraps).blk.cfgOk = false
    ∧ (State.reset.blk.cfg.parity ≠ 0 ∧ (zeros 14).length ≠ State.reset.blk.cfg.bufferSize
      ∧ (zeros 16).length ≠ State.reset.blk.cfg.bufferSize) :=
  ⟨⟨reset_inv, rfl, rfl, decodes10⟩, ⟨rfl, fails13⟩, by decide⟩

theorem witness_SourceAnswersCoverTheRange :
    (-32768 ≤ (-32768 : Int) ∧ (-32768 : Int) ≤ ((11 : Nat) : Int)
      ∧ ((([] : Bytes).length : Nat) : Int) = max (-32768) 0)
    ∧ (-32768 ≤ (11 : Int) ∧ (11 : Int) ≤ ((11 : Nat) : Int)
      ∧ ((payload10.length : Nat) : Int) = max 11 0) := by decide

theorem witness_RdPullsOnePayload :
    (BlockInv (withSource (.ended 0) State.reset).blk
      ∧ (withSource (.ended 0) State.reset).blk.cfgOk = true
      ∧ srcCount 11 (nextSrcAnswer (withSource (.ended 0) State.reset).env) = 0)
    ∧ (BlockInv (withSource (.bytes [0xAA]) State.reset).blk
      ∧ srcCount 11 (nextSrcAnswer (withSource (.bytes [0xAA]) State.reset).env) = 1
      ∧ State.reset.blk.cfg.parity ≠ 0)
    ∧ (BlockInv (withSource (.bytes [0x55, 0x66]) (fresh plainStraps)).blk
      ∧ (fresh plainStraps).blk.cfgOk = true
      ∧ srcCount 15 (nextSrcAnswer (withSource (.bytes [0x55, 0x66]) (fresh plainStraps)).env) = 2
      ∧ (fresh plainStraps).blk.cfg.parity = 0)
    ∧ (fresh badStraps).blk.cfgOk = false ∧ ([0] : Bytes) ≠ [] :=
  ⟨⟨reset_inv, by decide⟩, ⟨reset_inv, by decide⟩, ⟨plain_inv, by decide⟩, by decide⟩

theorem witness_WrWritesPayloadOrMarker :
    ((fresh plainStraps).blk.cfgOk = true ∧ (fresh plainStraps).blk.cfg.parity = 0)
    ∧ (State.reset.blk.cfgOk = true ∧ State.reset.blk.cfg.parity ≠ 0
      ∧ codeword10.length = State.reset.blk.cfg.bufferSize
      ∧ codecDecode State.reset.blk.cfg codeword10 = some payload10)
    ∧ (word13.length = State.reset.blk.cfg.bufferSize
      ∧ codecDecode State.reset.blk.cfg word13 = none)
    ∧ (fresh badStraps).blk.cfgOk = false
    ∧ (zeros 14).length ≠ State.reset.blk.cfg.bufferSize :=
  ⟨by decide, ⟨rfl, by decide, rfl, decodes10⟩, ⟨rfl, fails13⟩, by decide⟩

theorem witness_WrAdvancesSinkByFixedLength :
    (State.reset.blk.cfgOk = true ∧ State.reset.blk.cfg.parity ≠ 0
      ∧ word13.length = State.reset.blk.cfg.bufferSize)
    ∧ ((fresh plainStraps).blk.cfgOk = true ∧ (fresh plainStraps).blk.cfg.parity = 0)
    ∧ (fresh badStraps).blk.cfgOk = false
    ∧ (zeros 16).length ≠ State.reset.blk.cfg.bufferSize := by decide

theorem witness_GoodeGooddSampleHealth :
    State.reset.blk.cfgOk = true ∧ (fresh badStraps).blk.cfgOk = false ∧ ([0] : Bytes) ≠ [] := by decide

theorem witness_AdapterIgnoresSinkState :
    (∀ e g sid d, Instr.rd [] ≠ .accept e g sid d) ∧ (∀ d, Instr.rd [] ≠ .finalize d)
      ∧ ∀ r d, Instr.rd [] ≠ .rdreg r d :=
  ⟨fun _ _ _ _ h => Instr.noConfusion h, fun _ h => Instr.noConfusion h,
    fun _ _ h => Instr.noConfusion h⟩

theorem witness_AcceptAfterFinalizeIsIgnored :
    (ended .success).blk.cfgOk = true ∧ (ended .success).blk.phase = .finalized
      ∧ (zeros 4).length = (ended .success).blk.cfg.chunkSize
      ∧ (zeros 5).length ≠ (ended .success).blk.cfg.chunkSize := by decide

theorem witness_AcceptDropsErasedChunk :
    State.reset.blk.cfgOk = true ∧ State.reset.blk.phase = .live
      ∧ (zeros 4).length = State.reset.blk.cfg.chunkSize := by decide

theorem witness_AcceptForClosedGroupIsIgnored :
    (oneFlushed.blk.cfgOk = true ∧ oneFlushed.blk.phase = .live
      ∧ (zeros 4).length = oneFlushed.blk.cfg.chunkSize ∧ (0#16).toNat < oneFlushed.blk.nextGroup)
    ∧ (p2.blk.cfgOk = true ∧ p2.blk.phase = .live ∧ (zeros 4).length = p2.blk.cfg.chunkSize
      ∧ p2.blk.nextGroup ≤ (1#16).toNat
      ∧ gtGet p2.blk.gt (1#16).toNat
          = some (.resolved [0x11, 0x12, 0x13, 0x14, 0x15, 0x16, 0x17, 0x18])) := by decide

theorem witness_AcceptIgnoresDuplicate :
    p2.blk.cfgOk = true ∧ p2.blk.phase = .live
      ∧ ([0xFF, 0xFF, 0xFF, 0xFF] : Bytes).length = p2.blk.cfg.chunkSize
      ∧ p2.blk.nextGroup ≤ (0#16).toNat
      ∧ gtGet p2.blk.gt (0#16).toNat
          = some (.collecting [(1#16, [5, 6, 7, 8]), (3#16, [5, 6, 7, 8])])
      ∧ ((1#16, [5, 6, 7, 8]) : Symbol) ∈ [((1#16, [5, 6, 7, 8]) : Symbol), (3#16, [5, 6, 7, 8])] := by
  decide

theorem witness_AcceptWithoutRoomIsDropped :
    (full.blk.cfgOk = true ∧ full.blk.phase = .live ∧ (zeros 4).length = full.blk.cfg.chunkSize
      ∧ full.blk.nextGroup ≤ (0#16).toNat ∧ gtGet full.blk.gt (0#16).toNat = none
      ∧ full.blk.cfg.maxGroups ≤ full.blk.gt.length)
    ∧ (full.blk.nextGroup ≤ (1#16).toNat
      ∧ gtGet full.blk.gt (1#16).toNat = some (.collecting
          [(0#16, [0x11, 0x12, 0x13, 0x14]), (2#16, [0x11, 0x12, 0x13, 0x14])])
      ∧ (∀ x ∈ [((0#16, [0x11, 0x12, 0x13, 0x14]) : Symbol), (2#16, [0x11, 0x12, 0x13, 0x14])],
          x.1 ≠ 5#16)
      ∧ full.blk.cfg.maxSymbols
          ≤ [((0#16, [0x11, 0x12, 0x13, 0x14]) : Symbol), (2#16, [0x11, 0x12, 0x13, 0x14])].length) := by
  decide

/-- One symbol of group 0 stored, one short of K. -/
def oneStored : State :=
  { fresh Config.straps with blk := { (fresh Config.straps).blk with
      high := 1, gt := [(0, .collecting [(1#16, [5, 6, 7, 8])])] } }

theorem oneStored_inv : BlockInv oneStored.blk := by
  constructor
  case entries_ok =>
    exact List.forall_mem_cons.2
      ⟨show _ ∧ _ ∧ _ ∧ _ ∧ _ by decide +kernel, fun x hx => nomatch hx⟩
  all_goals first | decide | (unfold gtWf; decide)

/-- An attempt at exactly K stored symbols, one that fails (sid 3) and one that succeeds (sid 4). -/
theorem witness_AcceptStoresAttemptsFlushes_atThreshold :
    BlockInv oneStored.blk ∧ oneStored.blk.cfgOk = true ∧ oneStored.blk.phase = .live
      ∧ ([5, 6, 7, 8] : Bytes).length = oneStored.blk.cfg.chunkSize
      ∧ ([4, 4, 4, 0x0C] : Bytes).length = oneStored.blk.cfg.chunkSize
      ∧ oneStored.blk.nextGroup ≤ (0#16).toNat
      ∧ gtGet oneStored.blk.gt (0#16).toNat = some (.collecting [(1#16, [5, 6, 7, 8])])
      ∧ (∀ x ∈ [((1#16, [5, 6, 7, 8]) : Symbol)], x.1 ≠ 3#16 ∧ x.1 ≠ 4#16)
      ∧ 1 < oneStored.blk.cfg.maxSymbols ∧ oneStored.blk.cfg.sourceChunks = 1 + 1
      ∧ reconstruct oneStored.blk.cfg.sourceChunks oneStored.blk.cfg.chunkSize
          [(1#16, [5, 6, 7, 8]), (3#16, [5, 6, 7, 8])] = none
      ∧ IsResolvedRun (gtSet oneStored.blk.gt 0 (.collecting
          [(1#16, [5, 6, 7, 8]), (3#16, [5, 6, 7, 8])])) 0 []
      ∧ reconstruct oneStored.blk.cfg.sourceChunks oneStored.blk.cfg.chunkSize
          [(1#16, [5, 6, 7, 8]), (4#16, [4, 4, 4, 0x0C])] = some [1, 2, 3, 4, 5, 6, 7, 8]
      ∧ IsResolvedRun (gtSet oneStored.blk.gt 0 (.resolved [1, 2, 3, 4, 5, 6, 7, 8])) 0
          [[1, 2, 3, 4, 5, 6, 7, 8]] := by
  unfold IsResolvedRun
  exact ⟨oneStored_inv, by decide +kernel⟩

/-- The three clauses: below K, an attempt that fails, an attempt that succeeds and flushes two groups. -/
theorem witness_AcceptStoresAttemptsFlushes :
    (BlockInv State.reset.blk ∧ State.reset.blk.cfgOk = true ∧ State.reset.blk.phase = .live
      ∧ ([1, 2, 3, 4] : Bytes).length = State.reset.blk.cfg.chunkSize
      ∧ State.reset.blk.nextGroup ≤ (0xFFFF#16).toNat
      ∧ gtGet State.reset.blk.gt (0xFFFF#16).toNat = none
      ∧ State.reset.blk.gt.length < State.reset.blk.cfg.maxGroups
      ∧ 0 < State.reset.blk.cfg.maxSymbols ∧ 0 + 1 < State.reset.blk.cfg.sourceChunks
      ∧ IsResolvedRun (gtSet State.reset.blk.gt 65535 (.collecting [(0#16, [1, 2, 3, 4])])) 0 [])
    ∧ (BlockInv p2.blk ∧ p2.blk.cfgOk = true ∧ p2.blk.phase = .live
      ∧ gtGet p2.blk.gt (0#16).toNat
          = some (.collecting [(1#16, [5, 6, 7, 8]), (3#16, [5, 6, 7, 8])])
      ∧ (2 < p2.blk.cfg.maxSymbols ∧ p2.blk.cfg.sourceChunks ≤ 2 + 1)
      ∧ ([4, 4, 4, 0x0C] : Bytes).length = p2.blk.cfg.chunkSize ∧ p2.blk.nextGroup ≤ (0#16).toNat
      ∧ (∀ x ∈ [((1#16, [5, 6, 7, 8]) : Symbol), (3#16, [5, 6, 7, 8])], x.1 ≠ 4#16 ∧ x.1 ≠ 6#16)
      ∧ IsResolvedRun (gtSet p2.blk.gt 0 (.collecting
          [(1#16, [5, 6, 7, 8]), (3#16, [5, 6, 7, 8]), (6#16, [5, 6, 7, 8])])) 0 []
      ∧ reconstruct p2.blk.cfg.sourceChunks p2.blk.cfg.chunkSize
          [(1#16, [5, 6, 7, 8]), (3#16, [5, 6, 7, 8]), (6#16, [5, 6, 7, 8])] = none
      ∧ reconstruct p2.blk.cfg.sourceChunks p2.blk.cfg.chunkSize
          [(1#16, [5, 6, 7, 8]), (3#16, [5, 6, 7, 8]), (4#16, [4, 4, 4, 0x0C])]
          = some [1, 2, 3, 4, 5, 6, 7, 8]
      ∧ IsResolvedRun (gtSet p2.blk.gt 0 (.resolved [1, 2, 3, 4, 5, 6, 7, 8])) 0
          [[1, 2, 3, 4, 5, 6, 7, 8], [0x11, 0x12, 0x13, 0x14, 0x15, 0x16, 0x17, 0x18]]) := by
  unfold IsResolvedRun
  exact ⟨⟨reset_inv, by decide +kernel⟩, ⟨p2_inv, by decide +kernel⟩⟩

/-- A run that ends at the last group. -/
theorem witness_FlushLoopFlushesTheRun :
    gtWf atLastGroup.blk.gt ∧ (∀ x ∈ atLastGroup.blk.gt, x.1 ≤ 65535)
      ∧ IsResolvedRun atLastGroup.blk.gt atLastGroup.blk.nextGroup [[1]] := by
  unfold IsResolvedRun gtWf
  decide +kernel

/-- The three clauses: nothing lost; lost and flushed; lost and nothing flushed. -/
theorem witness_FinalizeFlushesAndReports :
    (BlockInv State.reset.blk ∧ State.reset.blk.cfgOk = true ∧ State.reset.blk.phase = .live
      ∧ lostGroups State.reset.blk = [])
    ∧ (BlockInv p3.blk ∧ p3.blk.cfgOk = true ∧ p3.blk.phase = .live ∧ lostGroups p3.blk = [0, 2, 3]
      ∧ heldGroups p3.blk = [(1, [0x11, 0x12, 0x13, 0x14, 0x15, 0x16, 0x17, 0x18])]
      ∧ 0 < p3.blk.cntGroupsFlushed.toNat + 1)
    ∧ (BlockInv { p2.blk with gt := p2.blk.gt.take 1, high := 1 }
      ∧ p2.blk.cfgOk = true ∧ p2.blk.phase = .live
      ∧ lostGroups { p2.blk with gt := p2.blk.gt.take 1, high := 1 } = [0]
      ∧ heldGroups { p2.blk with gt := p2.blk.gt.take 1, high := 1 } = []
      ∧ p2.blk.cntGroupsFlushed.toNat + 0 = 0) := by
  refine ⟨⟨reset_inv, by decide +kernel⟩, ⟨p3_inv, by decide +kernel⟩, ⟨?_, by decide +kernel⟩⟩
  constructor
  case entries_ok =>
    exact List.forall_mem_cons.2
      ⟨show _ ∧ _ ∧ _ ∧ _ ∧ _ by decide +kernel, fun x hx => nomatch hx⟩
  all_goals first | decide | (unfold gtWf; decide)

theorem witness_FinalizeAgainChangesNothing :
    ∀ summary, (ended summary).blk.cfgOk = true ∧ (ended summary).blk.phase = .finalized
      ∧ (ended summary).blk.summary = summary := by
  intro summary
  exact ⟨rfl, rfl, rfl⟩

theorem witness_StepKeepsInvariant :
    BlockInv (offer ⟨0#64, []⟩ p2).blk ∧ ∃ t, step (offer ⟨0#64, []⟩ p2) = .next t := by
  refine ⟨p2_inv, ?_⟩
  have hd : decode ⟨0#64, []⟩ = .ok (.nop []) := decode_of_selects (row := .nop) rfl rfl
  show ∃ t, runTransfer ⟨0#64, []⟩ (takeEvent (offer ⟨0#64, []⟩ p2)) = .next t
  unfold runTransfer
  rw [hd]
  exact ⟨_, rfl⟩

theorem witness_PushesAscendBetweenCursors : BlockInv p2.blk ∧ BlockInv p3.blk := ⟨p2_inv, p3_inv⟩

theorem witness_FieldLaws : gf256.genPow 7 = 0x80#8 ∧ gf2048.genPow 10 = 0x400#11 ∧ 0x80#8 ≠ 0#8 := by
  decide +kernel

theorem witness_CodecPassesThroughWithoutParity : plainStraps.parity = 0 := by decide

theorem witness_RsEncodeIsSystematicCodeword :
    (1 ≤ 4 ∧ 4 < 15 ∧ 15 ≤ 255 ∧ payload10.length ≤ 15 - 4)
      ∧ 1 ≤ 254 ∧ 254 < 255 ∧ 255 ≤ 255 ∧ ([1] : Bytes).length ≤ 255 - 254 := by decide

theorem witness_BchEncodeIsSystematicCodeword :
    (1 ≤ 2 ∧ 2 < 4 ∧ 4 ≤ 255 ∧ ([0xA5, 0x3C] : Bytes).length ≤ 4 - 2)
      ∧ 1 ≤ 254 ∧ 254 < 255 ∧ 255 ≤ 255 ∧ ([] : Bytes).length ≤ 255 - 254 := by decide

theorem witness_BchBoundIsLargest :
    (1 ≤ 1 ∧ 1 ≤ 254) ∧ 1 ≤ 254 ∧ 254 ≤ 254 ∧ (generatorRootExponents 0).card ≤ 8 * 1 := by decide

theorem witness_DecodeOfEncodedPayload :
    (strapsValid Config.straps = true ∧ Config.straps.parity ≠ 0
      ∧ payload10.length ≤ Config.straps.bufferSize - Config.straps.parity)
    ∧ strapsValid bchStraps = true ∧ bchStraps.parity ≠ 0
      ∧ ([] : Bytes).length ≤ bchStraps.bufferSize - bchStraps.parity := by decide

theorem witness_DecodeSuccessIsWithinBound :
    (strapsValid Config.straps = true ∧ Config.straps.parity ≠ 0
      ∧ codeword10.length = Config.straps.bufferSize
      ∧ codecDecode Config.straps codeword10 = some payload10)
    ∧ strapsValid bchStraps = true ∧ bchStraps.parity ≠ 0
      ∧ ([0xE5, 0x3C, 0x12, 0x40] : Bytes).length = bchStraps.bufferSize
      ∧ codecDecode bchStraps [0xE5, 0x3C, 0x12, 0x40] = some [0xA5, 0x3C] :=
  ⟨⟨rfl, by decide, rfl, decodes10⟩, rfl, by decide, rfl, test_bch_words.2.1⟩

/-- As many errors as the bound allows, in both kinds. -/
theorem witness_DecodeCorrectsWithinBound :
    (strapsValid Config.straps = true ∧ Config.straps.parity ≠ 0
      ∧ payload10.length ≤ Config.straps.bufferSize - Config.straps.parity
      ∧ codecDistance Config.straps
          [0, 1, 0xFD, 3, 4, 5, 6, 7, 8, 0, 0x0A, 0x86, 0xBF, 0xE6, 0x0E]
          (codecEncode Config.straps payload10) = codecBound Config.straps)
    ∧ strapsValid bchStraps = true ∧ bchStraps.parity ≠ 0
      ∧ codecDistance bchStraps [0xE5, 0x3C, 0x12, 0x5F] (codecEncode bchStraps [0xA5, 0x3C])
          = codecBound bchStraps := by
  have he : codecEncode bchStraps [0xA5, 0x3C] = [0xA5, 0x3C, 0x12, 0x40] := test_bch_words.1
  have hb : codecBound bchStraps = 1 := test_bch_parameters.1
  have hp : bchParityBits bchStraps.parity = 11 := test_bch_parameters.2.1
  refine ⟨by decide +kernel, rfl, by decide, ?_⟩
  rw [he, hb]
  show symbolDistance ((bitsOf _).take (_ + bchParityBits bchStraps.parity))
    ((bitsOf _).take (_ + bchParityBits bchStraps.parity)) = 1
  rw [hp]
  decide +kernel

theorem witness_CodewordsKeepTheirDistance :
    (1 ≤ 4 ∧ 4 < 15 ∧ 15 ≤ 255)
    ∧ (rsCode 15 4).Has codeword10 ∧ (rsCode 15 4).Has (zeros 15) ∧ codeword10 ≠ zeros 15
    ∧ (bchCode 4 2).Has (((bitsOf [0xA5, 0x3C, 0x12, 0x40]).take 27).map bitSymbol)
    ∧ (bchCode 4 2).Has (((bitsOf (zeros 4)).take 27).map bitSymbol)
    ∧ ((bitsOf [0xA5, 0x3C, 0x12, 0x40]).take 27).map bitSymbol
        ≠ ((bitsOf (zeros 4)).take 27).map bitSymbol := by
  have rs : ∀ w : Bytes, w.length = 15 →
      (∀ j ∈ List.range 5, 1 ≤ j → gf256.wordEval w (gf256.genPow j) = 0#8) → (rsCode 15 4).Has w :=
    fun w hl h => ⟨hl, fun hb => (nomatch hb), fun j h1 h2 =>
      h j (List.mem_range.2 (Nat.lt_succ_of_le h2)) h1⟩
  have n27 : (bchCode 4 2).n = 27 := congrArg (8 * (4 - 2) + ·) test_bch_parameters.2.1
  have r2 : (bchCode 4 2).roots = 2 := congrArg (2 * ·) test_bch_parameters.1
  have bch : ∀ l : List Bool, (l.map bitSymbol).length = 27 →
      (∀ j ∈ List.range 3, 1 ≤ j → gf2048.wordEval (l.map bitSymbol) (gf2048.genPow j) = 0#11) →
      (bchCode 4 2).Has (l.map bitSymbol) := fun l hl h => by
    refine ⟨hl.trans n27.symm, fun _ x hx => ?_, fun j h1 h2 =>
      h j (List.mem_range.2 (Nat.lt_succ_of_le (r2 ▸ h2))) h1⟩
    obtain ⟨b, -, rfl⟩ := List.mem_map.1 hx
    cases b
    · exact .inl rfl
    · exact .inr rfl
  exact ⟨by decide, rs _ rfl (by decide +kernel), rs _ rfl (by decide +kernel), by decide,
    bch _ rfl (by decide +kernel), bch _ rfl (by decide +kernel),
    fun h => absurd (congrArg List.head? h) (by decide)⟩

theorem witness_RowsAreNonZeroVectors :
    (1 ≤ 3 ∧ 2 < 3 ∧ 3 ≤ 10) ∧ 17 ≤ 17 ∧ 17 ≤ 65535 ∧ 65535 ≤ 65535 := by decide

/-- The source of V41. -/
theorem source41 : IsSource 3 2 [[0x11, 0x22], [0x33, 0x44], [0x55, 0x66]] := by
  unfold IsSource
  decide

theorem witness_ValidSymbolIsXorOfSources :
    1 ≤ 3 ∧ IsSource 3 2 [[0x11, 0x22], [0x33, 0x44], [0x55, 0x66]] := ⟨by decide, source41⟩

theorem witness_ReconstructFollowsItsSteps :
    1 ≤ 3 ∧ ([((9#16, [0x77, 0x00]) : Symbol), (3#16, [0x11, 0x22]), (5#16, [0x22, 0x66])].map
        Prod.fst).Nodup
      ∧ ∀ x ∈ [((9#16, [0x77, 0x00]) : Symbol), (3#16, [0x11, 0x22]), (5#16, [0x22, 0x66])],
          x.2.length = 2 := by decide

theorem witness_ReconstructFailsIffRankBelow : 1 ≤ 1 ∧ 1 ≤ 65535 := by decide

theorem witness_ReconstructRecoversSources :
    1 ≤ 3 ∧ IsSource 3 2 [[0x11, 0x22], [0x33, 0x44], [0x55, 0x66]]
      ∧ (∀ x ∈ [((9#16, [0x77, 0x00]) : Symbol), (3#16, [0x11, 0x22]), (5#16, [0x22, 0x66])],
          IsSymbolOf 3 2 [[0x11, 0x22], [0x33, 0x44], [0x55, 0x66]] x.1.toNat x.2)
      ∧ reconstruct 3 2 [(9#16, [0x77, 0x00]), (3#16, [0x11, 0x22]), (5#16, [0x22, 0x66])]
          = some [0x11, 0x22, 0x33, 0x44, 0x55, 0x66] := by
  unfold IsSymbolOf
  exact ⟨by decide, source41, by decide +kernel⟩

/-- The chunks of a session: group 1 before group 0, a dependent symbol, an erased chunk, a group that
stays incomplete. -/
def chunks : List AcceptArgs :=
  [(false, 1#16, 0#16, [0x11, 0x12, 0x13, 0x14]), (false, 1#16, 1#16, [0x15, 0x16, 0x17, 0x18]),
   (false, 0#16, 1#16, [5, 6, 7, 8]), (true, 0#16, 0#16, [0, 0, 0, 0]),
   (false, 0#16, 3#16, [5, 6, 7, 8]), (false, 0#16, 4#16, [4, 4, 4, 0x0C]),
   (false, 2#16, 0#16, [0, 0, 0, 0])]

/-- The stream of P2, zero beyond it. -/
def stream (g : Nat) : List Bytes :=
  if g = 0 then [[1, 2, 3, 4], [5, 6, 7, 8]]
  else if g = 1 then [[0x11, 0x12, 0x13, 0x14], [0x15, 0x16, 0x17, 0x18]]
  else [[0, 0, 0, 0], [0, 0, 0, 0]]

theorem stream_isSource (g : Nat) : IsSource 2 4 (stream g) := by
  unfold IsSource stream
  split
  · decide
  · split <;> decide

theorem reset_freshSession : FreshSession (withStage [true, false] State.reset) :=
  ⟨reset_inv, by decide, rfl, rfl, rfl, rfl⟩

theorem witness_SessionPushesOriginalBytes :
    FreshSession (withStage [true, false] State.reset)
      ∧ (∀ g, IsSource State.reset.blk.cfg.sourceChunks State.reset.blk.cfg.chunkSize (stream g))
      ∧ (∀ a ∈ chunks, a.1 = false →
          IsSymbolOf State.reset.blk.cfg.sourceChunks State.reset.blk.cfg.chunkSize
            (stream a.2.1.toNat) a.2.2.1.toNat a.2.2.2)
      ∧ ∃ t, runCommands (chunks.map AcceptArgs.command ++ [.finalize []])
          (withStage [true, false] State.reset) = some t := by
  refine ⟨reset_freshSession, stream_isSource, ?_, Option.isSome_iff_exists.1 (by decide +kernel)⟩
  unfold IsSymbolOf
  decide +kernel

theorem witness_ArrivalOrderDoesNotMatter :
    FreshSession (withStage [true, false] State.reset)
      ∧ (∀ g, IsSource State.reset.blk.cfg.sourceChunks State.reset.blk.cfg.chunkSize (stream g))
      ∧ (∀ a ∈ chunks, a.2.2.2.length = State.reset.blk.cfg.chunkSize ∧ (a.1 = false →
          IsSymbolOf State.reset.blk.cfg.sourceChunks State.reset.blk.cfg.chunkSize
            (stream a.2.1.toNat) a.2.2.1.toNat a.2.2.2))
      ∧ chunks.Perm chunks.reverse
      ∧ (∃ t, runCommands (chunks.map AcceptArgs.command ++ [.finalize []])
          (withStage [true, false] State.reset) = some t ∧ t.blk.overflow = false)
      ∧ ∃ u, runCommands (chunks.reverse.map AcceptArgs.command ++ [.finalize []])
          (withStage [true, false] State.reset) = some u ∧ u.blk.overflow = false := by
  have key : ∀ {o : Option State}, o.map (fun t => t.blk.overflow) = some false →
      ∃ t, o = some t ∧ t.blk.overflow = false := fun h => Option.map_eq_some_iff.1 h
  refine ⟨reset_freshSession, stream_isSource, ?_, (List.reverse_perm _).symm,
    key (by decide +kernel), key (by decide +kernel)⟩
  unfold IsSymbolOf
  decide +kernel

end Sys2Proof.Tests
end

/-! ## Where the machine goes on and where it stops -/

section
namespace Sys2Proof.Machine

/-! ### The outcome of a command -/

/-- Every command completes (R11, R270): each arm of `exec` ends in a next state, an exception included. -/
theorem exec_next (i : Instr) (s : State) : ∃ t, exec i s = .next t := by
  cases i with
  | nop data => exact ⟨_, rfl⟩
  | enc data => exact ⟨_, rfl⟩
  | dec data => exact ⟨_, rfl⟩
  | rd data => exact ⟨_, rfl⟩
  | wr data => exact ⟨_, rfl⟩
  | goode data => exact ⟨_, rfl⟩
  | goodd data => exact ⟨_, rfl⟩
  | accept e g sid data => exact ⟨_, rfl⟩
  | finalize data => exact ⟨_, rfl⟩
  | rdreg r data => exact ⟨_, rfl⟩

/-! ### The outcome of a transfer -/

theorem dataFits_eq_true_iff (data : Bytes) : dataFits data = true ↔ data.length ≤ 65535 :=
  decide_eq_true_iff

/-- A transfer that can exist goes on, whether or not its word is legal (R61, R98). -/
theorem runTransfer_of_fits {x : Transfer} (fits : x.data.length ≤ 65535) (s : State) :
    ∃ t, runTransfer x s = .next t := by
  obtain ⟨long, _⟩ | ⟨_, _, illegal⟩ | ⟨_, row, _, legal⟩ := decode_cases x
  · rw [(dataFits_eq_true_iff x.data).2 fits] at long
    cases long
  · exact ⟨raise .illegalCommand (opField x.word) s, by simp [runTransfer, illegal, rejectTransfer]⟩
  · obtain ⟨t, ht⟩ := exec_next (assemble row x.word x.data) s
    exact ⟨t, by simp [runTransfer, legal, ht]⟩

/-- The model's one fault (log 7). -/
theorem runTransfer_of_overlong {x : Transfer} (long : 65535 < x.data.length) (s : State) :
    runTransfer x s = .fault .transferTooLong := by
  have misfit : ¬ dataFits x.data = true := fun fits =>
    absurd ((dataFits_eq_true_iff x.data).1 fits) (Nat.not_le.2 long)
  simp [runTransfer, decode, misfit, rejectTransfer]

/-! ### The outcome of a step, by the next event -/

theorem step_of_idle {s : State} (h : s.env.inbox = []) : step s = .next s := by
  simp [step, h]

theorem step_of_reset {s : State} {straps : Cfg} {rest : List PortEvent}
    (h : s.env.inbox = .reset straps :: rest) :
    step s = .next (resetBlock straps (takeEvent s)) := by
  simp [step, h]

theorem step_of_resetDuring {s : State} {x : Transfer} {made : Nat} {straps : Cfg}
    {rest : List PortEvent} (h : s.env.inbox = .resetDuring x made straps :: rest) :
    step s = abandonCommand made straps (takeEvent s) (runTransfer x (takeEvent s)) := by
  simp [step, h]

theorem step_of_command {s : State} {x : Transfer} {rest : List PortEvent}
    (h : s.env.inbox = .command x :: rest) : step s = runTransfer x (takeEvent s) := by
  simp [step, h]

/-- The next event brings this transfer, with or without a reset while it executes. -/
def Brings (s : State) (x : Transfer) (rest : List PortEvent) : Prop :=
  s.env.inbox = .command x :: rest
    ∨ ∃ (made : Nat) (straps : Cfg), s.env.inbox = .resetDuring x made straps :: rest

/-- An event that brings no transfer never stops the machine. -/
theorem brings_or_step_next (s : State) :
    (∃ x rest, Brings s x rest) ∨ ∃ t, step s = .next t := by
  cases h : s.env.inbox with
  | nil => exact .inr ⟨_, step_of_idle h⟩
  | cons event rest =>
    cases event with
    | command x => exact .inl ⟨x, rest, .inl h⟩
    | reset straps => exact .inr ⟨_, step_of_reset h⟩
    | resetDuring x made straps => exact .inl ⟨x, rest, .inr ⟨made, straps, h⟩⟩

theorem step_of_brings_fits {s : State} {x : Transfer} {rest : List PortEvent}
    (h : Brings s x rest) (fits : x.data.length ≤ 65535) : ∃ t, step s = .next t := by
  obtain ⟨t, ht⟩ := runTransfer_of_fits fits (takeEvent s)
  obtain h | ⟨made, straps, h⟩ := h
  · exact ⟨t, by rw [step_of_command h, ht]⟩
  · exact ⟨abandon made straps (takeEvent s) t, by rw [step_of_resetDuring h, ht]; rfl⟩

theorem step_of_brings_overlong {s : State} {x : Transfer} {rest : List PortEvent}
    (h : Brings s x rest) (long : 65535 < x.data.length) : step s = .fault .transferTooLong := by
  have faults := runTransfer_of_overlong long (takeEvent s)
  obtain h | ⟨made, straps, h⟩ := h
  · rw [step_of_command h, faults]
  · rw [step_of_resetDuring h, faults]; rfl

/-- Every outcome of a step: it stops on an over-long transfer and goes on otherwise. -/
theorem step_cases (s : State) :
    (∃ t, step s = .next t)
    ∨ (step s = .fault .transferTooLong ∧ ∃ x rest, 65535 < x.data.length ∧ Brings s x rest) := by
  obtain ⟨x, rest, h⟩ | next := brings_or_step_next s
  · obtain long | fits := Nat.lt_or_ge 65535 x.data.length
    · exact .inr ⟨step_of_brings_overlong h long, x, rest, long, h⟩
    · exact .inl (step_of_brings_fits h fits)
  · exact .inl next

theorem step_ne_refused (s : State) (r : Refusal) : step s ≠ .refused r := by
  obtain ⟨t, h⟩ | ⟨h, _⟩ := step_cases s <;> simp [h]

theorem step_eq_fault_iff (s : State) (f : Fault) :
    step s = .fault f
      ↔ f = .transferTooLong ∧ ∃ x rest, 65535 < x.data.length ∧ Brings s x rest := by
  constructor
  · intro h
    obtain ⟨t, next⟩ | ⟨_, brought⟩ := step_cases s
    · simp [next] at h
    · exact ⟨by cases f; rfl, brought⟩
  · rintro ⟨rfl, x, rest, long, h⟩
    exact step_of_brings_overlong h long

/-- Settles O6: every arm of `exec` ends in a next state, so a step can stop only where the decoder finds
the transfer too long. -/
theorem onlyOverlongTransferStops : Obligations.OnlyOverlongTransferStops :=
  ⟨exec_next, fun _ => step_of_idle, step_ne_refused, step_eq_fault_iff⟩

end Sys2Proof.Machine
end

/-! ## Field elements as residues of polynomials -/

section
namespace Sys2Proof.Machine

open Polynomial

variable {m : Nat}

/-! ### The polynomial of an element -/

/-- The polynomial of the low k bits alone: what the first k turns of the product have multiplied by. -/
noncomputable def lowPolynomial (b : BitVec m) (k : Nat) : (ZMod 2)[X] :=
  ∑ i ∈ Finset.range k, if b.getLsbD i then X ^ i else 0

theorem lowPolynomial_width (b : BitVec m) : lowPolynomial b m = asPolynomial b := rfl

/-- The lowest bit and the bits above it, as `GF.mulLow` takes them. -/
theorem lowPolynomial_succ (b : BitVec m) (k : Nat) :
    lowPolynomial b (k + 1)
      = (if b.getLsbD 0 then (1 : (ZMod 2)[X]) else 0) + X * lowPolynomial (b >>> 1) k := by
  simp only [lowPolynomial, Finset.sum_range_succ', Finset.mul_sum, BitVec.getLsbD_ushiftRight,
    mul_ite, mul_zero, ← pow_succ', Nat.add_comm 1, pow_zero]
  rw [add_comm]

@[simp] theorem asPolynomial_zero : asPolynomial (0#m) = 0 := by
  simp [asPolynomial]

/-- The sum of elements is the sum of polynomials: bits add in ZMod 2. -/
@[simp] theorem asPolynomial_xor (a b : BitVec m) :
    asPolynomial (a ^^^ b) = asPolynomial a + asPolynomial b := by
  rw [asPolynomial, asPolynomial, asPolynomial, ← Finset.sum_add_distrib]
  refine Finset.sum_congr rfl fun i _ => ?_
  rw [BitVec.getLsbD_xor]
  cases a.getLsbD i <;> cases b.getLsbD i <;> simp [CharTwo.add_self_eq_zero]

/-- A shift by one multiplies by z, less the term that leaves the width. -/
theorem asPolynomial_shiftLeft_one (a : BitVec m) :
    asPolynomial (a <<< 1) = X * asPolynomial a + if a.msb then X ^ m else 0 := by
  cases m with
  | zero => simp [asPolynomial, BitVec.of_length_zero]
  | succ n =>
    have low : asPolynomial (a <<< 1)
        = ∑ i ∈ Finset.range n, if a.getLsbD i then (X : (ZMod 2)[X]) ^ (i + 1) else 0 := by
      rw [asPolynomial, Finset.sum_range_succ']
      simp only [BitVec.getLsbD_shiftLeft, Nat.zero_lt_one, decide_true, Bool.not_true,
        Bool.and_false, Bool.false_and, Bool.false_eq_true, if_false, add_zero]
      refine Finset.sum_congr rfl fun i hi => ?_
      simp [Finset.mem_range.1 hi]
    have whole : X * asPolynomial a
        = asPolynomial (a <<< 1) + if a.msb then X ^ (n + 1) else 0 := by
      rw [low, asPolynomial, Finset.mul_sum, Finset.sum_range_succ]
      simp [BitVec.msb_eq_getLsbD_last, mul_ite, ← pow_succ']
    rw [whole, add_assoc, CharTwo.add_self_eq_zero, add_zero]

/-- `xtime` multiplies by z and adds the field polynomial where a term leaves the width (R121). -/
theorem asPolynomial_xtime (F : GF m) (a : BitVec m) :
    asPolynomial (F.xtime a) = X * asPolynomial a + if a.msb then F.modulus else 0 := by
  unfold GF.xtime
  split <;> simp [asPolynomial_shiftLeft_one, GF.modulus, *, add_assoc]

/-! ### The residue of an element -/

/-- The residue of a field element: its polynomial modulo the field polynomial. -/
noncomputable def GF.residue (F : GF m) (a : BitVec m) : AdjoinRoot F.modulus :=
  AdjoinRoot.mk F.modulus (asPolynomial a)

@[simp] theorem GF.residue_zero (F : GF m) : F.residue 0#m = 0 := by
  simp [GF.residue]

@[simp] theorem GF.residue_xor (F : GF m) (a b : BitVec m) :
    F.residue (a ^^^ b) = F.residue a + F.residue b := by
  simp [GF.residue]

@[simp] theorem GF.residue_xtime (F : GF m) (a : BitVec m) :
    F.residue (F.xtime a) = AdjoinRoot.root F.modulus * F.residue a := by
  rw [GF.residue, asPolynomial_xtime]
  split <;> simp [GF.residue]

/-- The turns of the product, whatever their number: each adds the multiple of one bit. -/
theorem GF.residue_mulLow (F : GF m) (a b : BitVec m) (k : Nat) :
    F.residue (F.mulLow a b k) = F.residue a * AdjoinRoot.mk F.modulus (lowPolynomial b k) := by
  induction k generalizing a b with
  | zero => simp [GF.mulLow, lowPolynomial]
  | succ k ih =>
    have bit : F.residue (if b.getLsbD 0 then a else 0#m)
        = F.residue a * AdjoinRoot.mk F.modulus (if b.getLsbD 0 then 1 else 0) := by
      split <;> simp
    rw [GF.mulLow, residue_xor, bit, ih, residue_xtime, lowPolynomial_succ, map_add, map_mul,
      AdjoinRoot.mk_X]
    ring

/-- The product of elements is the product of residues. -/
@[simp] theorem GF.residue_mul (F : GF m) (a b : BitVec m) :
    F.residue (F.mul a b) = F.residue a * F.residue b := by
  show F.residue (F.mulLow a b m) = F.residue a * AdjoinRoot.mk F.modulus (asPolynomial b)
  rw [residue_mulLow, lowPolynomial_width]

/-- The product of elements differs from the product of polynomials by a multiple of the field
polynomial, in every field of this form. -/
theorem GF.modulus_dvd_mul (F : GF m) (a b : BitVec m) :
    F.modulus ∣ asPolynomial (F.mul a b) - asPolynomial a * asPolynomial b := by
  rw [← AdjoinRoot.mk_eq_mk, map_mul]
  exact F.residue_mul a b

/-- Settles O44, by the product of residues in both fields. -/
theorem fieldProductIsReducedPolynomialProduct :
    Obligations.FieldProductIsReducedPolynomialProduct :=
  ⟨gf256.modulus_dvd_mul, gf2048.modulus_dvd_mul⟩

end Sys2Proof.Machine
end

/-! ## The status registers -/

section
namespace Sys2Proof.Machine

/-! ### Words put together from fields -/

/-- The lowest field of a word. -/
theorem extractLsb'_append_lowest {v w : Nat} (hi : BitVec v) (lo : BitVec w) :
    (hi ++ lo).extractLsb' 0 w = lo := by
  rw [BitVec.extractLsb'_append_eq_of_add_le (by omega), BitVec.extractLsb'_eq_self]

/-- Bits above the lowest field of a word. -/
theorem getLsbD_append_above {v w i : Nat} {hi : BitVec v} {lo : BitVec w} (above : w ≤ i) :
    (hi ++ lo).getLsbD i = hi.getLsbD (i - w) := by
  simp [BitVec.getLsbD_append, Nat.not_lt.2 above]

/-- The lowest bit of a word whose lowest field is one bit. -/
theorem getLsbD_append_lowest {v : Nat} (hi : BitVec v) (lo : BitVec 1) :
    (hi ++ lo).getLsbD 0 = lo.getLsbD 0 := by
  simp only [BitVec.getLsbD_append, Nat.zero_lt_one, if_true]

/-- Settles O15: each register is the concatenation of its fields, and a field of a concatenation is
found by its place. -/
theorem configurationRegisters : Obligations.ConfigurationRegisters := by
  intro b
  refine ⟨rfl, ⟨cfg0Reg b.cfg, rfl, ?_, ?_, ?_, ?_, ?_⟩, ⟨cfg1Reg b.cfg, rfl, ?_, ?_, ?_⟩,
    cfg2Reg b.cfg, rfl, ?_, ?_, ?_, ?_⟩
  case refine_3 =>
    simp (disch := decide) only [cfg0Reg, getLsbD_append_above, Nat.reduceSub, getLsbD_append_lowest]
    cases b.cfg.codecKind <;> decide
  case refine_4 =>
    simp (disch := decide) only [cfg0Reg, getLsbD_append_above, Nat.reduceSub, getLsbD_append_lowest]
    cases b.cfg.flushPolicy <;> decide
  all_goals
    simp (disch := decide) only [cfg0Reg, cfg1Reg, cfg2Reg, extractLsb'_append_lowest,
      BitVec.extractLsb'_append_eq_of_le, Nat.reduceSub, BitVec.extractLsb'_eq_self]

theorem finalizedBit_eq_true_iff (p : Phase) : finalizedBit p = true ↔ p = .finalized := by
  cases p <;> decide

theorem statusCode_eq (x : Status) : statusCode x = BitVec.ofNat 8 (codeNumber x) := by
  cases x <;> rfl

/-- Settles O16: the two records are concatenations of their fields. -/
theorem statusRegisters : Obligations.StatusRegisters := by
  intro b
  refine ⟨⟨statusReg b, rfl, ?_⟩, lastErrReg b.lastErr, rfl, ?_⟩
  · simp (disch := decide) only [statusReg, getLsbD_append_above, Nat.reduceSub,
      getLsbD_append_lowest, BitVec.getLsbD_ofBool, extractLsb'_append_lowest,
      BitVec.extractLsb'_append_eq_of_le, BitVec.extractLsb'_eq_self]
    cases b.summary <;> simp [finalizedBit_eq_true_iff, summaryCode]
  · simp (disch := decide) only [lastErrReg, getLsbD_append_above, Nat.reduceSub,
      getLsbD_append_lowest, BitVec.getLsbD_ofBool, extractLsb'_append_lowest,
      BitVec.extractLsb'_append_eq_of_le, BitVec.extractLsb'_eq_self]
    simp [statusCode_eq]

/-- A value that fits its 17 bits is carried whole (R42). -/
theorem cursorReg_eq_ofNat {n : Nat} (fits : n < 2 ^ 17) : cursorReg n = BitVec.ofNat 64 n := by
  apply BitVec.eq_of_toNat_eq
  simp only [cursorReg, BitVec.toNat_append, BitVec.toNat_ofNat]
  simp
  omega

/-- An entry of a canonical table counts as RESOLVED where the table answers its payload. -/
theorem isResolved_eq_isSome {gt : GroupTable} (wf : gtWf gt) {x : Nat × GroupEntry} (hx : x ∈ gt) :
    x.2.isResolved = (resolvedPayload gt x.1).isSome := by
  obtain ⟨g, e⟩ := x
  simp only [resolvedPayload, gtGet_of_mem wf hx]
  cases e <;> rfl

/-- Settles O17: the table never has more than 65536 entries, so the 17-bit fields hold the counts whole. -/
theorem counterAndCursorRegisters : Obligations.CounterAndCursorRegisters := by
  intro b inv
  have next : b.nextGroup < 2 ^ 17 := lt_of_le_of_lt (inv.cursor_le_high.trans inv.high_le) (by decide)
  have high : b.high < 2 ^ 17 := lt_of_le_of_lt inv.high_le (by decide)
  have len : b.gt.length < 2 ^ 17 := lt_of_le_of_lt inv.table_fits b.cfg.gMax.isLt
  have count : b.gt.countP (fun x => x.2.isResolved)
      = (b.gt.filter fun x => (resolvedPayload b.gt x.1).isSome).length := by
    rw [← List.countP_eq_length_filter]
    exact List.countP_congr fun x hx => by rw [isResolved_eq_isSome inv.table_canonical hx]
  refine ⟨rfl, rfl, rfl, rfl, rfl, rfl, congrArg some (cursorReg_eq_ofNat next),
    congrArg some (cursorReg_eq_ofNat high), groupsLiveReg b.gt, rfl, ?_⟩
  simp (disch := decide) only [groupsLiveReg, extractLsb'_append_lowest, Nat.reduceSub,
    BitVec.extractLsb'_append_eq_of_le, BitVec.extractLsb'_eq_self, BitVec.toNat_ofNat]
  rw [← count, Nat.mod_eq_of_lt len, Nat.mod_eq_of_lt (lt_of_le_of_lt List.countP_le_length len)]
  exact ⟨rfl, trivial, rfl, trivial⟩

end Sys2Proof.Machine
end

/-! ## How a command ends -/

section
namespace Sys2Proof.Machine

/-! ### The entry that a stored chunk leaves -/

/-- The basis has no more members than there are symbols. -/
theorem rowRank_le_length (k : Nat) (syms : List Symbol) : rowRank k syms ≤ syms.length := by
  have key : ∀ (l : List Symbol) (st : Elimination),
      (l.foldl (eliminateStep k) st).basis.length ≤ st.basis.length + l.length := by
    intro l
    induction l with
    | nil => exact fun st => Nat.le_refl _
    | cons x rest ih =>
      intro st
      have := ih (eliminateStep k st x)
      obtain ⟨-, e⟩ | e := eliminateStep_cases k st x <;>
        simp only [e, List.length_append, List.length_cons, List.length_nil, List.foldl_cons] at this ⊢ <;>
        omega
  simpa [rowRank, chosenBasis, eliminate, sortSymbols] using key (sortSymbols syms) ⟨[], []⟩

theorem reconstruct_eq_none_iff (k c : Nat) (syms : List Symbol) :
    reconstruct k c syms = none ↔ rowRank k syms < k := by
  simp [reconstruct, rowRank]

/-- What the table holds for a group with these stored symbols (R211, R214). -/
def entryOf (cfg : Cfg) (syms : List Symbol) : GroupEntry :=
  match reconstruct cfg.sourceChunks cfg.chunkSize syms with
  | some payload => .resolved payload
  | none => .collecting syms

/-- Storing a chunk writes the group's entry and flushes; below K symbols there is no attempt, and an
attempt would fail. -/
theorem acceptStored_eq (op : Byte) (g : Nat) (syms : List Symbol) (s : State) :
    ∃ attempted now,
      acceptStored op g syms s = acceptFlush op attempted now (putEntry g (entryOf s.blk.cfg syms) s) := by
  unfold acceptStored entryOf
  by_cases enough : s.blk.cfg.sourceChunks ≤ syms.length
  · cases reconstruct s.blk.cfg.sourceChunks s.blk.cfg.chunkSize syms with
    | some payload => exact ⟨true, true, by simp [enough]⟩
    | none => exact ⟨true, false, by simp [enough]⟩
  · have short : reconstruct s.blk.cfg.sourceChunks s.blk.cfg.chunkSize syms = none :=
      (reconstruct_eq_none_iff _ _ _).2
        (lt_of_le_of_lt (rowRank_le_length _ _) (Nat.lt_of_not_le enough))
    exact ⟨false, false, by simp [enough, short]⟩

/-- The symbols that the table holds for a COLLECTING group, none for a new group that it has room for. -/
def HeldSymbols (b : Block) (g : Nat) (held : List Symbol) : Prop :=
  gtGet b.gt g = some (.collecting held)
    ∨ gtGet b.gt g = none ∧ held = [] ∧ b.gt.length < b.cfg.maxGroups

/-- When an `ACCEPT` stores its chunk beside the symbols held (R206 to R213). -/
structure Stores (b : Block) (g : Nat) (sid : Id16) (chunk : Bytes) (held : List Symbol) : Prop where
  holds : HeldSymbols b g held
  fresh : sid ∉ held.map Prod.fst
  room : held.length < b.cfg.maxSymbols
  whole : chunk.length = b.cfg.chunkSize

/-! ### The effects -/

/-- What a command does before it answers with status OK: `Effect s i rdata u` says that `i` at `s` may
lead to `u` and return the data `rdata`. -/
inductive Effect (s : State) : Instr → Bytes → State → Prop where
  /-- Nothing: `NOP`, `RDREG`, a failed `DEC`, a dropped `ACCEPT`, a repeated `FINALIZE`. -/
  | quiet (i : Instr) : Effect s i [] s
  | encoded {data : Bytes} (fits : payloadAdmitted s.blk.cfg data = true) :
      Effect s (.enc data) (codecEncode s.blk.cfg data) s
  | decoded {data payload : Bytes} (ok : codecDecode s.blk.cfg data = some payload) :
      Effect s (.dec data) payload s
  | sampledSource (data : Bytes) : Effect s (.goode data) [] (srcOk s)
  | sampledSink (data : Bytes) : Effect s (.goodd data) [] (sinkOk s)
  | sourceEnded (data : Bytes) :
      Effect s (.rd data) [] (clearEncGood (srcRead s.blk.cfg.payloadSize s))
  | pulled (data : Bytes) (a : SrcAnswer) :
      Effect s (.rd data) (srcBytes s.blk.cfg.payloadSize a) (srcRead s.blk.cfg.payloadSize s)
  | pulledEncoded (data : Bytes) (a : SrcAnswer) :
      Effect s (.rd data) (codecEncode s.blk.cfg (srcBytes s.blk.cfg.payloadSize a))
        (srcRead s.blk.cfg.payloadSize s)
  | passed (data : Bytes) : Effect s (.wr data) [] (sinkWrite data s)
  | wroteDecoded (data payload : Bytes) :
      Effect s (.wr data) [] (recordDecoded (sinkWrite payload s))
  | wroteMarker (data : Bytes) : Effect s (.wr data) [] (recordBadChunk (writeErasurePlaceholder s))
  /-- A chunk of an open group that is not stored: the group is RESOLVED, or has the symbol. -/
  | reached (e : Bool) (g sid : Id16) (data : Bytes) (live : s.blk.phase = .live)
      (opened : s.blk.nextGroup ≤ g.toNat) :
      Effect s (.accept e g sid data) [] (raiseHigh g.toNat s)
  /-- No room for the group or for the symbol. -/
  | overflowed (e : Bool) (g sid : Id16) (data : Bytes) (live : s.blk.phase = .live)
      (opened : s.blk.nextGroup ≤ g.toNat) :
      Effect s (.accept e g sid data) [] (setOverflow (raiseHigh g.toNat s))
  /-- A new group without room for one symbol, which no valid configuration has. -/
  | openedFull (e : Bool) (g sid : Id16) (data : Bytes) (ok : s.blk.cfgOk = true)
      (full : s.blk.cfg.maxSymbols = 0) :
      Effect s (.accept e g sid data) []
        (setOverflow (putEntry g.toNat (.collecting []) (raiseHigh g.toNat s)))
  | stored (e : Bool) (g sid : Id16) (data : Bytes) (held : List Symbol)
      (live : s.blk.phase = .live) (opened : s.blk.nextGroup ≤ g.toNat)
      (stores : Stores s.blk g.toNat sid data held) :
      Effect s (.accept e g sid data) []
        (flushAll (putEntry g.toNat (entryOf s.blk.cfg (held ++ [(sid, data)]))
          (raiseHigh g.toNat s))).1
  | finalized (data : Bytes) (live : s.blk.phase = .live) :
      Effect s (.finalize data) (lossRecords s.blk.cfg.groupSize (finalWalk s).lost)
        (endSession (finalWalk s).lost (finalWalk s).st)

/-- How a command ends: with an exception, or with its effect and a response (R267, R268). -/
inductive Ends (i : Instr) (s : State) : State → Prop where
  | raised (x : Status) (notOk : x ≠ .ok) : Ends i s (raise x i.mnemonic.opcode s)
  | answered (value : Word64) {rdata : Bytes} {u : State} (effect : Effect s i rdata u) :
      Ends i s (respond i.mnemonic.opcode value rdata u)

/-! ### Every command ends so -/

theorem guarded_ends (i : Instr) {s : State} {admitted : Bool} {body : State → State}
    (h : s.blk.cfgOk = true → admitted = true → Ends i s (body s)) :
    Ends i s (guarded i.mnemonic.opcode admitted body s) := by
  obtain ⟨-, e⟩ | ⟨-, -, e⟩ | ⟨ok, fits, e⟩ := guarded_cases i.mnemonic.opcode admitted body s
  · exact e ▸ .raised _ (by decide)
  · exact e ▸ .raised _ (by decide)
  · exact e ▸ h ok fits

theorem lengthGuarded_ends (i : Instr) {s : State} {admitted : Bool} {body : State → State}
    (h : Ends i s (body s)) : Ends i s (lengthGuarded i.mnemonic.opcode admitted body s) := by
  obtain ⟨-, e⟩ | ⟨-, e⟩ := lengthGuarded_cases i.mnemonic.opcode admitted body s
  · exact e ▸ .raised _ (by decide)
  · exact e ▸ h

theorem readPath_ends (data : Bytes) (s : State) : Ends (.rd data) s (readPath Mnemonic.rd.opcode s) := by
  unfold readPath answerRead
  simp only
  split
  · exact .answered _ (.sourceEnded data)
  · split
    · exact .answered _ (.pulledEncoded data _)
    · exact .answered _ (.pulled data _)

theorem writePath_ends (data : Bytes) (s : State) :
    Ends (.wr data) s (writePath Mnemonic.wr.opcode data s) := by
  unfold writePath
  split
  · exact .answered _ (.passed data)
  · split
    · exact .answered _ (.wroteDecoded data _)
    · exact .answered _ (.wroteMarker data)

theorem respondDecoded_ends (data : Bytes) (s : State) :
    Ends (.dec data) s (respondDecoded Mnemonic.dec.opcode (codecDecode s.blk.cfg data) s) := by
  cases h : codecDecode s.blk.cfg data with
  | some payload => exact .answered _ (.decoded h)
  | none => exact .answered _ (.quiet _)

/-- A chunk that is stored, whatever stands in the table for its group: the entry is written over. -/
theorem acceptStored_ends (e : Bool) {g sid : Id16} {data : Bytes} {held : List Symbol} {s u : State}
    (live : s.blk.phase = .live) (opened : s.blk.nextGroup ≤ g.toNat)
    (stores : Stores s.blk g.toNat sid data held) (cfg : u.blk.cfg = s.blk.cfg)
    (overwrites : ∀ x, putEntry g.toNat x u = putEntry g.toNat x (raiseHigh g.toNat s)) :
    Ends (.accept e g sid data) s
      (acceptStored Mnemonic.accept.opcode g.toNat (held ++ [(sid, data)]) u) := by
  obtain ⟨attempted, now, h⟩ :=
    acceptStored_eq Mnemonic.accept.opcode g.toNat (held ++ [(sid, data)]) u
  rw [h, overwrites, cfg]
  exact .answered _ (.stored e g sid data held live opened stores)

theorem acceptRouted_ends (e : Bool) {g sid : Id16} {data : Bytes} {s : State}
    (ok : s.blk.cfgOk = true) (whole : data.length = s.blk.cfg.chunkSize)
    (live : s.blk.phase = .live) (opened : s.blk.nextGroup ≤ g.toNat) :
    Ends (.accept e g sid data) s
      (acceptRouted Mnemonic.accept.opcode g.toNat sid data (raiseHigh g.toNat s)) := by
  unfold acceptRouted
  rw [raiseHigh_gt]
  split
  · exact .answered _ (.reached e g sid data live opened)
  · rename_i held found
    unfold acceptSymbol
    split
    · exact .answered _ (.reached e g sid data live opened)
    · rename_i fresh
      split
      · exact .answered _ (.overflowed e g sid data live opened)
      · rename_i room
        exact acceptStored_ends e live opened
          ⟨.inl found, by simpa using fresh, Nat.lt_of_not_le room, whole⟩ rfl fun _ => rfl
  · rename_i absent
    split
    · exact .answered _ (.overflowed e g sid data live opened)
    · rename_i space
      unfold acceptSymbol
      rw [if_neg (by simp)]
      split
      · rename_i full
        exact .answered _ (.openedFull e g sid data ok (Nat.le_zero.1 full))
      · rename_i room
        exact acceptStored_ends e live opened
          ⟨.inr ⟨absent, rfl, Nat.lt_of_not_le space⟩, by simp, Nat.lt_of_not_le room, whole⟩ rfl
          fun x => by simp [putEntry]

theorem acceptChunk_ends (e : Bool) {g sid : Id16} {data : Bytes} {s : State}
    (ok : s.blk.cfgOk = true) (whole : data.length = s.blk.cfg.chunkSize) :
    Ends (.accept e g sid data) s
      (acceptChunk Mnemonic.accept.opcode e g.toNat sid data s) := by
  unfold acceptChunk
  split
  · exact .answered _ (.quiet _)
  · rename_i live
    split
    · exact .answered _ (.quiet _)
    · split
      · exact .answered _ (.quiet _)
      · rename_i opened
        refine acceptRouted_ends e ok whole ?_ (Nat.le_of_not_lt opened)
        cases h : s.blk.phase with
        | live => rfl
        | finalized => exact absurd h live

theorem finalizeSession_ends (data : Bytes) (s : State) :
    Ends (.finalize data) s (finalizeSession Mnemonic.finalize.opcode s) := by
  unfold finalizeSession
  split
  · rename_i live
    exact .answered _ (.finalized data live)
  · exact .answered _ (.quiet _)

/-- Every command ends with an exception or with one of the effects. -/
theorem exec_ends (i : Instr) (s : State) : ∃ t, exec i s = .next t ∧ Ends i s t := by
  cases i with
  | nop data => exact ⟨_, rfl, lengthGuarded_ends (.nop data) (.answered _ (.quiet _))⟩
  | enc data =>
    exact ⟨_, rfl, guarded_ends (.enc data) fun _ fits => .answered _ (.encoded fits)⟩
  | dec data => exact ⟨_, rfl, guarded_ends (.dec data) fun _ _ => respondDecoded_ends data s⟩
  | rd data => exact ⟨_, rfl, guarded_ends (.rd data) fun _ _ => readPath_ends data s⟩
  | wr data => exact ⟨_, rfl, guarded_ends (.wr data) fun _ _ => writePath_ends data s⟩
  | goode data =>
    exact ⟨_, rfl, guarded_ends (.goode data) fun _ _ => .answered _ (.sampledSource data)⟩
  | goodd data =>
    exact ⟨_, rfl, guarded_ends (.goodd data) fun _ _ => .answered _ (.sampledSink data)⟩
  | accept e g sid data =>
    exact ⟨_, rfl, guarded_ends (.accept e g sid data) fun ok fits =>
      acceptChunk_ends e ok ((chunkAdmitted_eq_true _ _).1 fits)⟩
  | finalize data =>
    exact ⟨_, rfl, guarded_ends (.finalize data) fun _ _ => finalizeSession_ends data s⟩
  | rdreg r data =>
    refine ⟨_, rfl, ?_⟩
    split
    · exact .raised _ (by decide)
    · exact lengthGuarded_ends (.rdreg r data) (.answered _ (.quiet _))

/-- What is known of a command's next state. -/
theorem ends_of_exec {i : Instr} {s t : State} (h : exec i s = .next t) : Ends i s t := by
  obtain ⟨u, hu, ends⟩ := exec_ends i s
  exact Host.Outcome.next.inj (hu.symm.trans h) ▸ ends

end Sys2Proof.Machine
end

/-! ## What no command changes -/

section
namespace Sys2Proof.Machine

/-! ### What flushing leaves alone -/

/-- From `s` to `t` only pushes have been made, cursors moved and entries taken out: everything else of the
block stands as it stood, nothing was taken from the inbox and nothing answered (R215, R216, R225). -/
structure OnlyFlushed (s t : State) : Prop where
  cfg : t.blk.cfg = s.blk.cfg
  cfgOk : t.blk.cfgOk = s.blk.cfgOk
  encGood : t.blk.encGood = s.blk.encGood
  decGood : t.blk.decGood = s.blk.decGood
  fault : t.blk.fault = s.blk.fault
  overflow : t.blk.overflow = s.blk.overflow
  lastErr : t.blk.lastErr = s.blk.lastErr
  phase : t.blk.phase = s.blk.phase
  summary : t.blk.summary = s.blk.summary
  high : t.blk.high = s.blk.high
  dcpFault : s.blk.dcpFault = true → t.blk.dcpFault = true
  inbox : t.env.inbox = s.env.inbox
  outbox : t.env.outbox = s.env.outbox

theorem OnlyFlushed.refl (s : State) : OnlyFlushed s s :=
  ⟨rfl, rfl, rfl, rfl, rfl, rfl, rfl, rfl, rfl, rfl, id, rfl, rfl⟩

theorem OnlyFlushed.flush {s t : State} (h : OnlyFlushed s t) (g : Nat) (payload : Bytes) :
    OnlyFlushed s (flush g payload t) :=
  { h with dcpFault := fun set => by simp [h.dcpFault set] }

theorem OnlyFlushed.advanceCursor {s t : State} (h : OnlyFlushed s t) :
    OnlyFlushed s (advanceCursor t) := { h with }

/-- The flush loop only flushes. -/
theorem flushAll_onlyFlushed (s : State) : OnlyFlushed s (flushAll s).1 :=
  flushLoop_induct (fun t _ => OnlyFlushed s t)
    (fun _ _ payload _ _ h => (h.flush _ payload).advanceCursor) _ _ _ (.refl s)

/-! ### The walk of `FINALIZE` -/

/-- The entry of a reported group is abandoned (R226). -/
def abandonEntry (g : Nat) (s : State) : State :=
  { s with blk := { s.blk with gt := gtErase s.blk.gt g } }

theorem OnlyFlushed.abandonEntry {s t : State} (h : OnlyFlushed s t) (g : Nat) :
    OnlyFlushed s (abandonEntry g t) := { h with }

/-- One visit of the walk flushes the group or reports it. -/
theorem finalVisit_cases (w : FinalWalk) (g : Nat) :
    (∃ payload, resolvedPayload w.st.blk.gt g = some payload
      ∧ finalVisit w g = ⟨flush g payload w.st, w.flushedN + 1, w.lost⟩)
    ∨ finalVisit w g = ⟨abandonEntry g w.st, w.flushedN, w.lost ++ [g]⟩ := by
  unfold finalVisit
  cases h : resolvedPayload w.st.blk.gt g with
  | some payload => exact .inl ⟨payload, rfl, rfl⟩
  | none => exact .inr rfl

/-- What every visit keeps, the walk keeps: `P w g` speaks of the walk before it visits `g`. -/
theorem finalWalk_induct (P : FinalWalk → Nat → Prop) (s : State) (start : P ⟨s, 0, []⟩ s.blk.nextGroup)
    (visit : ∀ w g, s.blk.nextGroup ≤ g → g < s.blk.high → P w g → P (finalVisit w g) (g + 1)) :
    P (finalWalk s) (s.blk.nextGroup + (s.blk.high - s.blk.nextGroup)) := by
  have key : ∀ n w g, s.blk.nextGroup ≤ g → g + n ≤ s.blk.nextGroup + (s.blk.high - s.blk.nextGroup) →
      P w g → P ((List.range' g n).foldl finalVisit w) (g + n) := by
    intro n
    induction n with
    | zero => exact fun w g _ _ h => h
    | succ n ih =>
      intro w g lo hi h
      have := ih (finalVisit w g) (g + 1) (by omega) (by omega) (visit w g lo (by omega) h)
      rwa [Nat.add_right_comm, Nat.add_assoc] at this
  exact key _ _ _ (Nat.le_refl _) (Nat.le_refl _) start

/-- The walk only flushes. -/
theorem finalWalk_onlyFlushed (s : State) : OnlyFlushed s (finalWalk s).st :=
  finalWalk_induct (fun w _ => OnlyFlushed s w.st) s (.refl s) fun w g _ _ h => by
    obtain ⟨payload, -, e⟩ | e := finalVisit_cases w g
    · exact e ▸ h.flush g payload
    · exact e ▸ h.abandonEntry g

/-! ### The configuration, the sticky bits and the sink's state -/

theorem Effect.keeps_cfg {i : Instr} {s u : State} {rdata : Bytes} (h : Effect s i rdata u) :
    u.blk.cfg = s.blk.cfg ∧ u.blk.cfgOk = s.blk.cfgOk := by
  cases h with
  | stored e g sid data held =>
    have flushed := flushAll_onlyFlushed
      (putEntry g.toNat (entryOf s.blk.cfg (held ++ [(sid, data)])) (raiseHigh g.toNat s))
    exact ⟨flushed.cfg, flushed.cfgOk⟩
  | finalized =>
    exact ⟨(finalWalk_onlyFlushed s).cfg, (finalWalk_onlyFlushed s).cfgOk⟩
  | _ => exact ⟨rfl, rfl⟩

/-- Settles O40: no effect writes the configuration, and neither exceptions nor responses do. -/
theorem commandsKeepConfiguration : Obligations.CommandsKeepConfiguration := by
  intro i s
  obtain ⟨t, ht, ends⟩ := exec_ends i s
  refine ⟨t, ht, ?_⟩
  cases ends with
  | raised x => exact ⟨rfl, rfl⟩
  | answered value effect => exact effect.keeps_cfg

/-- What is set stays set, and a session that has ended stays as it ended (R25, R26, R27, R36, R41). -/
structure Sticks (b c : Block) : Prop where
  fault : b.fault = true → c.fault = true
  dcpFault : b.dcpFault = true → c.dcpFault = true
  overflow : b.overflow = true → c.overflow = true
  valid : b.lastErr.valid = true → c.lastErr.valid = true
  encGood : b.encGood = false → c.encGood = false
  decGood : c.decGood = b.decGood
  ended : b.phase = .finalized → c.phase = .finalized ∧ c.summary = b.summary

theorem Sticks.refl (b : Block) : Sticks b b := ⟨id, id, id, id, id, rfl, fun h => ⟨h, rfl⟩⟩

theorem OnlyFlushed.sticks {s t : State} (h : OnlyFlushed s t) : Sticks s.blk t.blk where
  fault := h.fault.trans
  dcpFault := h.dcpFault
  overflow := h.overflow.trans
  valid := (congrArg LastErr.valid h.lastErr).trans
  encGood := h.encGood.trans
  decGood := h.decGood
  ended := fun fin => ⟨h.phase.trans fin, h.summary⟩

/-- Only `FINALIZE` in the LIVE phase writes `PHASE` and `SUMMARY`. -/
theorem Effect.sticks {i : Instr} {s u : State} {rdata : Bytes} (h : Effect s i rdata u) :
    Sticks s.blk u.blk := by
  cases h with
  | sourceEnded => exact { Sticks.refl s.blk with encGood := fun _ => rfl }
  | overflowed | openedFull => exact { Sticks.refl s.blk with overflow := fun _ => rfl }
  | stored e g sid data held =>
    exact { (flushAll_onlyFlushed (putEntry g.toNat (entryOf s.blk.cfg (held ++ [(sid, data)]))
      (raiseHigh g.toNat s))).sticks with }
  | finalized data live =>
    exact { (finalWalk_onlyFlushed s).sticks with ended := fun fin => by simp [live] at fin }
  | _ => exact { Sticks.refl s.blk with }

theorem Ends.sticks {i : Instr} {s t : State} (h : Ends i s t) : Sticks s.blk t.blk := by
  cases h with
  | raised x => exact { Sticks.refl s.blk with fault := fun _ => rfl, valid := fun _ => rfl }
  | answered value effect => exact effect.sticks

/-- Settles O41: only an exception writes the fault record, and what flushing writes it only sets. -/
theorem commandsKeepStickyBits : Obligations.CommandsKeepStickyBits := by
  intro i s
  obtain ⟨t, ht, ends⟩ := exec_ends i s
  obtain ⟨fault, dcpFault, overflow, valid, encGood, decGood, ended⟩ := ends.sticks
  exact ⟨t, ht, fault, dcpFault, overflow, valid, encGood, decGood, ended⟩

/-- The state of the sink that a command which is neither `ACCEPT` nor `FINALIZE` leaves alone. -/
def SameSink (b c : Block) : Prop :=
  c.phase = b.phase ∧ c.high = b.high ∧ c.nextGroup = b.nextGroup ∧ c.gt = b.gt

/-- How a command may change the sink: not at all, as an `ACCEPT`, or as a `FINALIZE`. -/
def SinkChange (i : Instr) (b c : Block) : Prop :=
  SameSink b c
    ∨ (∃ e g sid d, i = .accept e g sid d) ∧ c.phase = b.phase
    ∨ (∃ d, i = .finalize d) ∧ c.high = b.high

theorem Effect.changes_sink {i : Instr} {s u : State} {rdata : Bytes} (h : Effect s i rdata u) :
    SinkChange i s.blk u.blk := by
  cases h with
  | reached | overflowed | openedFull => exact .inr (.inl ⟨⟨_, _, _, _, rfl⟩, rfl⟩)
  | stored e g sid data => exact .inr (.inl ⟨⟨e, g, sid, data, rfl⟩, (flushAll_onlyFlushed _).phase⟩)
  | finalized data => exact .inr (.inr ⟨⟨data, rfl⟩, (finalWalk_onlyFlushed s).high⟩)
  | _ => exact .inl ⟨rfl, rfl, rfl, rfl⟩

theorem Ends.changes_sink {i : Instr} {s t : State} (h : Ends i s t) :
    SinkChange i s.blk t.blk := by
  cases h with
  | raised x => exact .inl ⟨rfl, rfl, rfl, rfl⟩
  | answered value effect => exact effect.changes_sink

/-- Settles O42: what each effect moves of the sink's state. -/
theorem onlySinkCommandsChangeSink : Obligations.OnlySinkCommandsChangeSink := by
  intro i s
  obtain ⟨t, ht, ends⟩ := exec_ends i s
  refine ⟨t, ht, ?_⟩
  obtain ⟨phase, high, next, gt⟩ | ⟨accept, phase⟩ | ⟨finalize, high⟩ := ends.changes_sink
  · exact ⟨fun ne => absurd phase ne, fun ne => absurd high ne,
      fun ne => ne.elim (absurd next) (absurd gt)⟩
  · exact ⟨fun ne => absurd phase ne, fun _ => accept, fun _ => .inr accept⟩
  · exact ⟨fun _ => finalize, fun ne => absurd high ne, fun _ => .inl finalize⟩

end Sys2Proof.Machine
end

/-! ## The invariant of the block -/

section
namespace Sys2Proof.Machine

/-! ### After a reset -/

theorem blockInv_afterReset (straps : Cfg) :
    BlockInv (Block.afterReset straps (strapsValid straps)) where
  cfgOk_valid := rfl
  table_canonical := gtWf_nil
  keys_between := fun _ hx => nomatch hx
  cursor_le_high := Nat.le_refl 0
  high_le := Nat.zero_le _
  cursor_not_resolved := fun _ => rfl
  table_fits := Nat.zero_le _
  entries_ok := fun _ hx => nomatch hx
  finalized_empty := fun _ => ⟨rfl, rfl⟩
  bytes_recovered := BitVec.mul_zero.symm
  dec_good := rfl
  live_summary := fun _ => rfl
  live_flushed := fun _ => rfl
  flushed_le_high := Nat.le_refl 0
  fault_iff_record := rfl
  no_fault_clear := fun _ => ⟨rfl, rfl⟩
  fault_code := nofun
  no_push_fault_clear := fun _ => rfl

/-- Settles O38: a reset block holds nothing and has counted nothing, whatever the straps. -/
theorem invariantHoldsAfterReset : Obligations.InvariantHoldsAfterReset :=
  ⟨blockInv_afterReset _, fun _ straps => blockInv_afterReset straps⟩

/-! ### What a command keeps while it executes -/

/-- The clauses of `BlockInv` that hold also while a command executes: they tie neither the cursor to the
table nor the counters to the cursor and the phase. -/
structure WorkInv (b : Block) : Prop where
  cfgOk_valid : b.cfgOk = strapsValid b.cfg
  table_canonical : gtWf b.gt
  keys_between : ∀ x ∈ b.gt, b.nextGroup ≤ x.1 ∧ x.1 < b.high
  cursor_le_high : b.nextGroup ≤ b.high
  high_le : b.high ≤ 65536
  table_fits : b.gt.length ≤ b.cfg.maxGroups
  entries_ok : ∀ x ∈ b.gt, entryOk b.cfg x.2
  bytes_recovered : b.bytesRecovered = BitVec.ofNat 64 b.cfg.groupSize * b.cntGroupsFlushed
  dec_good : b.decGood = true
  fault_iff_record : b.fault = b.lastErr.valid
  no_fault_clear : b.fault = false → b.lastErr = ⟨.ok, 0#8, false⟩ ∧ b.cntFaults = 0#64
  fault_code : b.fault = true → b.lastErr.code ≠ .ok
  no_push_fault_clear : b.dcpFault = false → b.cntDcpFault = 0#64

theorem BlockInv.working {b : Block} (h : BlockInv b) : WorkInv b := { h with }

theorem WorkInv.abandonEntry {s : State} (h : WorkInv s.blk) (g : Nat) :
    WorkInv (abandonEntry g s).blk :=
  { h with
    table_canonical := gtWf_gtErase g h.table_canonical
    keys_between := fun x hx => h.keys_between x (mem_gtErase.1 hx).1
    table_fits := (List.length_filter_le _ _).trans h.table_fits
    entries_ok := fun x hx => h.entries_ok x (mem_gtErase.1 hx).1 }

theorem WorkInv.flush {s : State} (h : WorkInv s.blk) (g : Nat) (payload : Bytes) :
    WorkInv (flush g payload s).blk :=
  { h.abandonEntry g with
    bytes_recovered := by
      rw [flush_bytesRecovered, flush_cfg, flush_cntGroupsFlushed, h.bytes_recovered, BitVec.mul_add,
        BitVec.mul_one]
    no_push_fault_clear := by
      intro clear
      rw [flush_dcpFault, Bool.or_eq_false_iff] at clear
      simp [clear.2, h.no_push_fault_clear clear.1] }

/-- The cursor passes a group that `GT` does not hold. -/
theorem WorkInv.advanceCursor {s : State} (h : WorkInv s.blk) (below : s.blk.nextGroup < s.blk.high)
    (absent : gtGet s.blk.gt s.blk.nextGroup = none) : WorkInv (advanceCursor s).blk :=
  { h with
    keys_between := fun x hx => by
      obtain ⟨lo, hi⟩ := h.keys_between x hx
      exact ⟨Nat.lt_of_le_of_ne lo (gtGet_eq_none.1 absent x hx).symm, hi⟩
    cursor_le_high := below }

theorem WorkInv.raiseHigh {s : State} (h : WorkInv s.blk) {g : Nat} (bound : g < 65536) :
    WorkInv (raiseHigh g s).blk :=
  { h with
    keys_between := fun x hx => by
      obtain ⟨lo, hi⟩ := h.keys_between x hx
      exact ⟨lo, lt_of_lt_of_le hi (Nat.le_max_left _ _)⟩
    cursor_le_high := h.cursor_le_high.trans (Nat.le_max_left _ _)
    high_le := Nat.max_le.2 ⟨h.high_le, bound⟩ }

theorem WorkInv.putEntry {s : State} (h : WorkInv s.blk) {g : Nat} {e : GroupEntry}
    (between : s.blk.nextGroup ≤ g ∧ g < s.blk.high) (ok : entryOk s.blk.cfg e)
    (fits : (gtSet s.blk.gt g e).length ≤ s.blk.cfg.maxGroups) : WorkInv (putEntry g e s).blk :=
  { h with
    table_canonical := gtWf_gtSet g e h.table_canonical
    keys_between := fun x hx => (mem_gtSet hx).elim (fun eq => eq ▸ between) (h.keys_between x)
    table_fits := fits
    entries_ok := fun x hx => (mem_gtSet hx).elim (fun eq => eq ▸ ok) (h.entries_ok x) }

/-- The length of a RESOLVED group's payload (R45). -/
theorem WorkInv.length_payload {b : Block} (h : WorkInv b) {g : Nat} {payload : Bytes}
    (hp : resolvedPayload b.gt g = some payload) : payload.length = b.cfg.groupSize :=
  h.entries_ok _ (mem_of_gtGet (resolvedPayload_eq_some.1 hp))

/-- A RESOLVED group lies below `HIGH` (R49). -/
theorem WorkInv.resolved_lt_high {b : Block} (h : WorkInv b) {g : Nat} {payload : Bytes}
    (hp : resolvedPayload b.gt g = some payload) : g < b.high :=
  (h.keys_between _ (mem_of_gtGet (resolvedPayload_eq_some.1 hp))).2

/-! ### The LIVE phase: the flush loop -/

/-- The clauses of the LIVE phase but the one that the flush loop restores, that the group at the cursor is
not RESOLVED. -/
structure LiveInv (b : Block) : Prop extends WorkInv b where
  live : b.phase = .live
  summary : b.summary = .success
  flushed : b.cntGroupsFlushed = BitVec.ofNat 64 b.nextGroup

theorem BlockInv.toLive {b : Block} (h : BlockInv b) (live : b.phase = .live) : LiveInv b :=
  { h.working with live := live, summary := h.live_summary live, flushed := h.live_flushed live }

theorem LiveInv.blockInv {b : Block} (h : LiveInv b)
    (closed : resolvedPayload b.gt b.nextGroup = none) : BlockInv b :=
  { h with
    cursor_not_resolved := fun _ => closed
    finalized_empty := fun fin => by simp [h.live] at fin
    live_summary := fun _ => h.summary
    live_flushed := fun _ => h.flushed
    flushed_le_high := by
      rw [h.flushed, BitVec.toNat_ofNat]
      exact (Nat.mod_le _ _).trans h.cursor_le_high }

/-- One turn of the flush loop (R216). -/
theorem LiveInv.turn {s : State} (h : LiveInv s.blk) {payload : Bytes}
    (hp : resolvedPayload s.blk.gt s.blk.nextGroup = some payload) :
    LiveInv (advanceCursor (flush s.blk.nextGroup payload s)).blk :=
  { (h.toWorkInv.flush s.blk.nextGroup payload).advanceCursor (h.toWorkInv.resolved_lt_high hp)
      (gtGet_gtErase_same _ _) with
    live := h.live
    summary := h.summary
    flushed := by
      rw [advanceCursor_cntGroupsFlushed, flush_cntGroupsFlushed, h.flushed]
      exact (BitVec.ofNat_add _ _).symm }

theorem flushAll_liveInv {s : State} (h : LiveInv s.blk) : LiveInv (flushAll s).1.blk :=
  flushLoop_induct (fun t _ => LiveInv t.blk) (fun _ _ _ _ hp ht => ht.turn hp) _ _ _ h

/-- The flush loop has turns enough to come to a group that is not RESOLVED, or past the last one. -/
theorem flushLoop_closes (fuel n : Nat) (s : State) (enough : s.blk.gt.length ≤ fuel) :
    65535 < (flushLoop fuel n s).1.blk.nextGroup
      ∨ resolvedPayload (flushLoop fuel n s).1.blk.gt (flushLoop fuel n s).1.blk.nextGroup = none := by
  induction fuel generalizing n s with
  | zero =>
    have empty : s.blk.gt = [] := List.eq_nil_of_length_eq_zero (Nat.le_zero.1 enough)
    exact .inr (by simp [flushLoop, empty, resolvedPayload, gtGet])
  | succ fuel ih =>
    by_cases le : s.blk.nextGroup ≤ 65535
    · cases hp : resolvedPayload s.blk.gt s.blk.nextGroup with
      | none => rw [flushLoop_stop _ _ _ hp]; exact .inr hp
      | some payload =>
        rw [flushLoop_turn _ _ _ _ le hp]
        have shorter := length_gtErase_lt (resolvedPayload_eq_some.1 hp)
        exact ih _ _ (Nat.le_of_lt_succ (lt_of_lt_of_le shorter enough))
    · rw [flushLoop_past_end _ _ _ (Nat.lt_of_not_le le)]
      exact .inl (Nat.lt_of_not_le le)

/-- The flush restores the invariant (R49 (c), R216). -/
theorem flushAll_blockInv {s : State} (h : LiveInv s.blk) : BlockInv (flushAll s).1.blk := by
  have after := flushAll_liveInv h
  refine after.blockInv ?_
  obtain past | closed := flushLoop_closes s.blk.gt.length 0 s (Nat.le_refl _)
  · cases hp : resolvedPayload (flushAll s).1.blk.gt (flushAll s).1.blk.nextGroup with
    | none => rfl
    | some payload =>
      have below := after.toWorkInv.resolved_lt_high hp
      have bound := after.high_le
      change 65535 < (flushAll s).1.blk.nextGroup at past
      omega
  · exact closed

/-! ### The FINALIZED phase: the walk -/

/-- What holds of the walk before it visits `g` (R225, R226, R227). -/
structure WalkInv (w : FinalWalk) (g : Nat) : Prop where
  working : WorkInv w.st.blk
  ahead : ∀ x ∈ w.st.blk.gt, g ≤ x.1
  flushed : w.st.blk.cntGroupsFlushed.toNat ≤ g
  reported : w.lost.length ≤ g

theorem WalkInv.visit {w : FinalWalk} {g : Nat} (h : WalkInv w g) : WalkInv (finalVisit w g) (g + 1) := by
  have ahead : ∀ x ∈ gtErase w.st.blk.gt g, g + 1 ≤ x.1 := fun x hx => by
    obtain ⟨mem, ne⟩ := mem_gtErase.1 hx
    exact Nat.lt_of_le_of_ne (h.ahead x mem) ne.symm
  obtain ⟨payload, -, e⟩ | e := finalVisit_cases w g
  · rw [e]
    refine ⟨h.working.flush g payload, ahead, ?_, Nat.le_succ_of_le h.reported⟩
    rw [flush_cntGroupsFlushed, BitVec.toNat_add]
    exact (Nat.mod_le _ _).trans (Nat.succ_le_succ h.flushed)
  · rw [e]
    exact ⟨h.working.abandonEntry g, ahead, Nat.le_succ_of_le h.flushed, by
      simpa using h.reported⟩

theorem finalWalk_walkInv {s : State} (h : LiveInv s.blk) : WalkInv (finalWalk s) s.blk.high := by
  have start : WalkInv ⟨s, 0, []⟩ s.blk.nextGroup :=
    ⟨h.toWorkInv, fun x hx => (h.keys_between x hx).1, by
      rw [h.flushed, BitVec.toNat_ofNat]; exact Nat.mod_le _ _, Nat.zero_le _⟩
  have walked := finalWalk_induct WalkInv s start fun _ _ _ _ hw => hw.visit
  rwa [Nat.add_sub_of_le h.cursor_le_high] at walked

/-- The end of the session (R225, R49 (f)): the walk has emptied the table. -/
theorem endSession_blockInv {s : State} (h : LiveInv s.blk) :
    BlockInv (endSession (finalWalk s).lost (finalWalk s).st).blk := by
  have walked := finalWalk_walkInv h
  have high := (finalWalk_onlyFlushed s).high
  have empty : (finalWalk s).st.blk.gt = [] := List.eq_nil_iff_forall_not_mem.2 fun x hx => by
    have := walked.ahead x hx
    have := (walked.working.keys_between x hx).2
    omega
  exact
    { walked.working with
      keys_between := fun x hx => by simp [empty] at hx
      cursor_le_high := Nat.le_refl _
      cursor_not_resolved := nofun
      finalized_empty := fun _ => ⟨empty, rfl⟩
      live_summary := nofun
      live_flushed := nofun
      flushed_le_high := high.symm ▸ walked.flushed }

/-! ### A stored chunk -/

/-- The entry that a stored chunk leaves is in order (R45, R211, R214). -/
theorem entryOk_entryOf {cfg : Cfg} {syms : List Symbol} (some_held : syms ≠ [])
    (room : syms.length ≤ cfg.maxSymbols) (distinct : (syms.map Prod.fst).Nodup)
    (whole : ∀ x ∈ syms, x.2.length = cfg.chunkSize) : entryOk cfg (entryOf cfg syms) := by
  unfold entryOf
  cases h : reconstruct cfg.sourceChunks cfg.chunkSize syms with
  | some payload => exact length_reconstruct whole h
  | none => exact ⟨some_held, room, distinct, whole, (reconstruct_eq_none_iff _ _ _).1 h⟩

/-- What the table says of the symbols held: they are distinct, and whole chunks (R45). -/
theorem WorkInv.held_ok {b : Block} (h : WorkInv b) {g : Nat} {held : List Symbol}
    (holds : HeldSymbols b g held) :
    (held.map Prod.fst).Nodup ∧ ∀ x ∈ held, x.2.length = b.cfg.chunkSize := by
  obtain found | ⟨-, rfl, -⟩ := holds
  · obtain ⟨-, -, distinct, whole, -⟩ := h.entries_ok _ (mem_of_gtGet found)
    exact ⟨distinct, whole⟩
  · exact ⟨List.nodup_nil, nofun⟩

theorem WorkInv.entryOk_of_stores {b : Block} (h : WorkInv b) {g : Nat} {sid : Id16} {chunk : Bytes}
    {held : List Symbol} (stores : Stores b g sid chunk held) :
    entryOk b.cfg (entryOf b.cfg (held ++ [(sid, chunk)])) := by
  obtain ⟨distinct, whole⟩ := h.held_ok stores.holds
  refine entryOk_entryOf (by simp) (by simpa using stores.room) ?_ ?_
  · rw [List.map_append]
    exact distinct.append (List.nodup_singleton _) (by simpa using stores.fresh)
  · intro x hx
    obtain mem | rfl := List.mem_append.1 hx |>.imp_right List.mem_singleton.1
    · exact whole x mem
    · exact stores.whole

/-- The entry written has a place in the table (R212). -/
theorem WorkInv.gtSet_fits {b : Block} (h : WorkInv b) {g : Nat} {held : List Symbol}
    (holds : HeldSymbols b g held) (e : GroupEntry) : (gtSet b.gt g e).length ≤ b.cfg.maxGroups := by
  obtain found | ⟨absent, -, space⟩ := holds
  · exact (length_gtSet_of_some e h.table_canonical found).symm ▸ h.table_fits
  · exact (length_gtSet_of_none e absent).symm ▸ space

/-- A chunk of an open group raises `HIGH` alone (R208). -/
theorem LiveInv.raiseHigh {s : State} (h : LiveInv s.blk) {g : Nat} (bound : g < 65536) :
    LiveInv (raiseHigh g s).blk :=
  { h.toWorkInv.raiseHigh bound with live := h.live, summary := h.summary, flushed := h.flushed }

theorem LiveInv.store {s : State} (h : LiveInv s.blk) {g : Nat} (bound : g < 65536)
    (opened : s.blk.nextGroup ≤ g) {sid : Id16} {chunk : Bytes} {held : List Symbol}
    (stores : Stores s.blk g sid chunk held) :
    LiveInv (putEntry g (entryOf s.blk.cfg (held ++ [(sid, chunk)])) (Machine.raiseHigh g s)).blk :=
  { (h.toWorkInv.raiseHigh bound).putEntry ⟨opened, Nat.lt_of_succ_le (Nat.le_max_right _ _)⟩
      (h.toWorkInv.entryOk_of_stores stores) (h.toWorkInv.gtSet_fits stores.holds _) with
    live := h.live, summary := h.summary, flushed := h.flushed }

/-! ### Every command, every step -/

/-- A valid configuration has room for a symbol (R303). -/
theorem maxSymbols_pos_of_strapsValid {cfg : Cfg} (valid : strapsValid cfg = true) :
    0 < cfg.maxSymbols := by
  simp only [strapsValid, Bool.and_eq_true, decide_eq_true_eq] at valid
  omega

theorem BlockInv.raiseHigh {s : State} (h : BlockInv s.blk) (live : s.blk.phase = .live) {g : Nat}
    (bound : g < 65536) : BlockInv (raiseHigh g s).blk :=
  ((h.toLive live).raiseHigh bound).blockInv (h.cursor_not_resolved live)

theorem Effect.keeps_blockInv {i : Instr} {s u : State} {rdata : Bytes} (effect : Effect s i rdata u)
    (h : BlockInv s.blk) : BlockInv u.blk := by
  cases effect with
  | reached e g sid data live => exact h.raiseHigh live g.isLt
  | overflowed e g sid data live => exact { h.raiseHigh live g.isLt with }
  | openedFull e g sid data ok full =>
    exact absurd full (Nat.ne_of_gt (maxSymbols_pos_of_strapsValid (h.cfgOk_valid.symm.trans ok)))
  | stored e g sid data held live opened stores =>
    exact flushAll_blockInv ((h.toLive live).store g.isLt opened stores)
  | finalized data live => exact endSession_blockInv (h.toLive live)
  | _ => exact { h with }

/-- An exception keeps the invariant: its code is not OK (R261, R268). -/
theorem raise_blockInv {s : State} (h : BlockInv s.blk) {x : Status} (notOk : x ≠ .ok) (op : Byte) :
    BlockInv (raise x op s).blk :=
  { h with
    fault_iff_record := rfl
    no_fault_clear := nofun
    fault_code := fun _ => notOk }

theorem Ends.keeps_blockInv {i : Instr} {s t : State} (ends : Ends i s t) (h : BlockInv s.blk) :
    BlockInv t.blk := by
  cases ends with
  | raised x notOk => exact raise_blockInv h notOk _
  | answered value effect => exact effect.keeps_blockInv h

/-- Settles O39: every effect of a command keeps the invariant, and every reset establishes it. -/
theorem stepKeepsInvariant : Obligations.StepKeepsInvariant := by
  intro s t h next
  obtain ⟨-, rfl⟩ | ⟨straps, _, -, rfl⟩ | ⟨_, _, straps, _, _, -, -, rfl⟩ | ⟨x, _, -, ran⟩ :=
    step_next_cases next
  · exact h
  · exact blockInv_afterReset straps
  · exact blockInv_afterReset straps
  · obtain ⟨i, -, exec⟩ | ⟨-, rfl⟩ := runTransfer_next_cases ran
    · exact (ends_of_exec exec).keeps_blockInv h
    · exact raise_blockInv h (by decide) _

end Sys2Proof.Machine
end

/-! ## The pushes of a command -/

section
namespace Sys2Proof.Machine

theorem pushesOf_append (a b : List Call) : pushesOf (a ++ b) = pushesOf a ++ pushesOf b :=
  List.filterMap_append

/-- From `s` to `t` exactly these groups have been pushed, in strictly ascending order, all of them from the
cursor of `s` to below `upTo`, and the counters have grown by them (R37, R65, R216, R230 (c)). -/
structure Pushed (s t : State) (groups : List (Nat × Bytes)) (upTo : Nat) : Prop where
  pushes : pushesOf t.env.calls
    = pushesOf s.env.calls ++ groups.map (fun x => (x.1 * s.blk.cfg.groupSize, x.2))
  ascending : groups.Pairwise (fun x y => x.1 < y.1)
  between : ∀ x ∈ groups, s.blk.nextGroup ≤ x.1 ∧ x.1 < upTo ∧ x.2.length = s.blk.cfg.groupSize
  flushed : t.blk.cntGroupsFlushed = s.blk.cntGroupsFlushed + BitVec.ofNat 64 groups.length
  recovered : t.blk.bytesRecovered
    = s.blk.bytesRecovered + BitVec.ofNat 64 (groups.length * s.blk.cfg.groupSize)

theorem Pushed.refl (s : State) (upTo : Nat) : Pushed s s [] upTo :=
  ⟨by simp, .nil, nofun, by simp, by simp⟩

/-- A further group is flushed, at or above all pushed so far. -/
theorem Pushed.flush {s t : State} {groups : List (Nat × Bytes)} {g : Nat}
    (h : Pushed s t groups g) (cfg : t.blk.cfg = s.blk.cfg) (lo : s.blk.nextGroup ≤ g)
    {payload : Bytes} (whole : payload.length = s.blk.cfg.groupSize) :
    Pushed s (flush g payload t) (groups ++ [(g, payload)]) (g + 1) where
  pushes := by
    rw [flush_calls, pushesOf_append, h.pushes, cfg, List.map_append, List.append_assoc]
    rfl
  ascending := by
    refine List.pairwise_append.2 ⟨h.ascending, List.pairwise_singleton _ _, fun x hx y hy => ?_⟩
    rw [List.mem_singleton.1 hy]
    exact (h.between x hx).2.1
  between := by
    intro x hx
    obtain mem | rfl := List.mem_append.1 hx |>.imp_right List.mem_singleton.1
    · obtain ⟨above, below, whole⟩ := h.between x mem
      exact ⟨above, Nat.lt_succ_of_lt below, whole⟩
    · exact ⟨lo, Nat.lt_succ_self g, whole⟩
  flushed := by
    rw [flush_cntGroupsFlushed, h.flushed, List.length_append, BitVec.ofNat_add, BitVec.add_assoc]
    rfl
  recovered := by
    rw [flush_bytesRecovered, h.recovered, cfg, List.length_append, Nat.add_mul, BitVec.ofNat_add,
      BitVec.add_assoc, List.length_singleton, Nat.one_mul]

/-- The flush loop pushes the groups between the old cursor and the new one. -/
theorem flushAll_pushed {s : State} (h : LiveInv s.blk) :
    s.blk.nextGroup ≤ (flushAll s).1.blk.nextGroup
      ∧ ∃ groups, Pushed s (flushAll s).1 groups (flushAll s).1.blk.nextGroup := by
  have key := flushLoop_induct
    (fun t _ => LiveInv t.blk ∧ OnlyFlushed s t ∧ s.blk.nextGroup ≤ t.blk.nextGroup
      ∧ ∃ groups, Pushed s t groups t.blk.nextGroup)
    (by
      rintro t n payload - hp ⟨live, only, le, groups, pushed⟩
      have whole : payload.length = s.blk.cfg.groupSize :=
        only.cfg ▸ live.toWorkInv.length_payload hp
      exact ⟨live.turn hp, (only.flush _ _).advanceCursor, Nat.le_succ_of_le le, _,
        { pushed.flush only.cfg le whole with }⟩)
    s.blk.gt.length 0 s ⟨h, .refl s, Nat.le_refl _, [], .refl s _⟩
  exact key.2.2

/-- The walk of `FINALIZE` pushes groups from the cursor to below `HIGH`. -/
theorem finalWalk_pushed {s : State} (h : LiveInv s.blk) :
    ∃ groups, Pushed s (finalWalk s).st groups s.blk.high := by
  have key := finalWalk_induct
    (fun w g => WorkInv w.st.blk ∧ OnlyFlushed s w.st ∧ ∃ groups, Pushed s w.st groups g) s
    ⟨h.toWorkInv, .refl s, [], .refl s _⟩
    (by
      rintro w g lo - ⟨working, only, groups, pushed⟩
      obtain ⟨payload, hp, e⟩ | e := finalVisit_cases w g
      · rw [e]
        exact ⟨working.flush g payload, only.flush g payload, _,
          pushed.flush only.cfg lo (only.cfg ▸ working.length_payload hp)⟩
      · rw [e]
        exact ⟨working.abandonEntry g, only.abandonEntry g, groups,
          { pushed with
            between := fun x hx => by
              obtain ⟨above, below, whole⟩ := pushed.between x hx
              exact ⟨above, Nat.lt_succ_of_lt below, whole⟩ }⟩)
  rw [Nat.add_sub_of_le h.cursor_le_high] at key
  exact key.2.2

/-- A call that is no `DcpPush` adds nothing to the pushes. -/
theorem pushesOf_snoc_other (calls : List Call) {c : Call} (other : isDcpPush c = false) :
    pushesOf (calls ++ [c]) = pushesOf calls := by
  rw [pushesOf_append]
  cases c with
  | dcpPush => cases other
  | _ => exact List.append_nil _

/-- The cursors do not fall, and the pushes made lie between the old cursor and the new one. -/
def Advances (s t : State) : Prop :=
  s.blk.nextGroup ≤ t.blk.nextGroup ∧ s.blk.high ≤ t.blk.high
    ∧ ∃ groups, Pushed s t groups t.blk.nextGroup

/-- Where nothing is pushed. -/
theorem Advances.of_no_push {s t : State} (next : t.blk.nextGroup = s.blk.nextGroup)
    (high : s.blk.high ≤ t.blk.high) (pushes : pushesOf t.env.calls = pushesOf s.env.calls)
    (flushed : t.blk.cntGroupsFlushed = s.blk.cntGroupsFlushed)
    (recovered : t.blk.bytesRecovered = s.blk.bytesRecovered) : Advances s t :=
  ⟨next.ge, high, [], by simpa using pushes, .nil, nofun, by simpa using flushed,
    by simpa using recovered⟩

theorem Effect.advances {i : Instr} {s u : State} {rdata : Bytes} (effect : Effect s i rdata u)
    (h : BlockInv s.blk) : Advances s u := by
  cases effect with
  | sampledSource | sampledSink | sourceEnded | pulled | pulledEncoded | passed | wroteDecoded
  | wroteMarker => exact .of_no_push rfl (Nat.le_refl _) (pushesOf_snoc_other _ rfl) rfl rfl
  | reached | overflowed | openedFull => exact .of_no_push rfl (Nat.le_max_left _ _) rfl rfl rfl
  | stored e g sid data held live opened stores =>
    obtain ⟨le, groups, pushed⟩ := flushAll_pushed ((h.toLive live).store g.isLt opened stores)
    exact ⟨le, (flushAll_onlyFlushed _).high.symm ▸ Nat.le_max_left _ _, groups, { pushed with }⟩
  | finalized data live =>
    obtain ⟨groups, pushed⟩ := finalWalk_pushed (h.toLive live)
    have high := (finalWalk_onlyFlushed s).high
    refine ⟨h.cursor_le_high.trans high.ge, high.ge, groups, ?_⟩
    rw [endSession_nextGroup, high]
    exact { pushed with }
  | _ => exact .of_no_push rfl (Nat.le_refl _) rfl rfl rfl

theorem Ends.advances {i : Instr} {s t : State} (ends : Ends i s t) (h : BlockInv s.blk) :
    Advances s t := by
  cases ends with
  | raised x => exact .of_no_push rfl (Nat.le_refl _) rfl rfl rfl
  | answered value effect =>
    obtain ⟨next, high, groups, pushed⟩ := effect.advances h
    exact ⟨next, high, groups, { pushed with }⟩

/-- Settles O43, by the pushes of the flush loop and of the walk; no other effect pushes. -/
theorem pushesAscendBetweenCursors : Obligations.PushesAscendBetweenCursors := by
  intro i s h
  obtain ⟨t, ht, ends⟩ := exec_ends i s
  obtain ⟨next, high, groups, pushed⟩ := ends.advances h
  exact ⟨t, groups, ht, next, high, pushed.pushes, pushed.ascending, pushed.between, pushed.flushed,
    pushed.recovered⟩

end Sys2Proof.Machine
end

/-! ## The reset input -/

section
namespace Sys2Proof.Machine

theorem strapsValid_iff (cfg : Cfg) :
    strapsValid cfg = true
      ↔ 1 ≤ cfg.b.toNat ∧ cfg.p.toNat < cfg.b.toNat ∧ cfg.flushPolicy = .strictInOrder
        ∧ 1 ≤ cfg.c.toNat ∧ 1 ≤ cfg.k.toNat ∧ 1 ≤ cfg.gMax.toNat ∧ cfg.gMax.toNat ≤ 65536
        ∧ cfg.k.toNat ≤ cfg.sMax.toNat ∧ cfg.sMax.toNat ≤ 65536 := by
  have hb : cfg.b.toNat ≤ 255 := Nat.le_of_lt_succ cfg.b.isLt
  have hc : cfg.c.toNat ≤ 65535 := Nat.le_of_lt_succ cfg.c.isLt
  have hk : cfg.k.toNat ≤ 65535 := Nat.le_of_lt_succ cfg.k.isLt
  simp only [strapsValid, Bool.and_eq_true, decide_eq_true_eq]
  simp only [Cfg.bufferSize, Cfg.parity, Cfg.chunkSize, Cfg.sourceChunks, Cfg.maxGroups,
    Cfg.maxSymbols]
  tauto

/-- The register of an empty error record (R36). -/
theorem noErrorRecord : lastErrReg ⟨.ok, 0#8, false⟩ = 0#64 := by decide

/-- Settles O7: the step is the reset at the state from whose inbox the event has been taken. -/
theorem resetSetsEveryItem : Obligations.ResetSetsEveryItem := by
  intro s straps rest inbox
  refine ⟨_, step_of_reset inbox, rfl, strapsValid_iff straps, rfl, rfl, rfl, rfl, rfl, rfl,
    congrArg some noErrorRecord, rfl, rfl, rfl, rfl, rfl, rfl, rfl, rfl, rfl, rfl, rfl, rfl, ?_⟩
  simp [takeEvent, inbox]

end Sys2Proof.Machine
end

/-! ## The responses -/

section
namespace Sys2Proof.Machine

/-! ### Lengths of codewords and payloads -/

@[simp] theorem length_polyAdd {m : Nat} (a b : List (BitVec m)) :
    (polyAdd a b).length = max a.length b.length := by
  induction a generalizing b with
  | nil => cases b <;> simp [polyAdd]
  | cons x a ih =>
    cases b with
    | nil => simp [polyAdd]
    | cons y b => simp [polyAdd, ih, Nat.succ_max_succ]

@[simp] theorem length_scale {m : Nat} (F : GF m) (c : BitVec m) (p : List (BitVec m)) :
    (F.scale c p).length = p.length := List.length_map _

/-- The monic polynomial with r roots has r + 1 coefficients. -/
theorem length_fromRoots {m : Nat} (F : GF m) (roots : List (BitVec m)) :
    (F.fromRoots roots).length = roots.length + 1 := by
  have key : ∀ g : List (BitVec m), (roots.foldl F.mulByRoot g).length = g.length + roots.length := by
    induction roots with
    | nil => exact fun g => rfl
    | cons a rest ih =>
      intro g
      rw [List.foldl_cons, ih]
      simp only [GF.mulByRoot, length_polyAdd, List.length_append, List.length_cons, length_scale,
        List.length_nil]
      omega
  rw [GF.fromRoots, key, List.length_singleton, Nat.add_comm]

@[simp] theorem length_powersFrom {m : Nat} (F : GF m) (g x : BitVec m) (n : Nat) :
    (F.powersFrom g x n).length = n := by
  induction n generalizing x with
  | zero => rfl
  | succ n ih => simp [GF.powersFrom, ih]

/-- Long division leaves as many coefficients as the divisor has below its leading one. -/
theorem length_divSteps {m : Nat} (F : GF m) (tail : List (BitVec m)) (k : Nat)
    (r : List (BitVec m)) (h : r.length = k + tail.length) :
    (F.divSteps tail k r).length = tail.length := by
  induction k generalizing r with
  | zero => simpa [GF.divSteps] using h
  | succ k ih =>
    cases r with
    | nil => simp at h; omega
    | cons c rest =>
      refine ih _ ?_
      simp only [List.length_cons] at h
      simp only [length_polyAdd, length_scale]
      omega

/-- The systematic codeword is the message and as many coefficients as the generator has roots. -/
theorem length_encodeSystematic {m : Nat} (F : GF m) (roots msg : List (BitVec m)) :
    (F.encodeSystematic (F.fromRoots roots) msg).length = msg.length + roots.length := by
  have tail : (F.fromRoots roots).tail.length = roots.length := by
    rw [List.length_tail, length_fromRoots, Nat.add_sub_cancel]
  rw [GF.encodeSystematic, List.length_append, GF.remainder,
    length_divSteps _ _ _ _ (by simp), tail]

theorem length_padPayload {d : Nat} {p : Bytes} (fits : p.length ≤ d) : (padPayload d p).length = d := by
  rw [padPayload, List.length_append, length_zeros, Nat.add_sub_of_le fits]

theorem length_rsEncode {b parity : Nat} {p : Bytes} (fits : p.length ≤ b - parity) :
    (rsEncode b parity p).length = b - parity + parity := by
  rw [rsEncode, rsGenerator, length_encodeSystematic, length_padPayload fits, length_powersFrom]

theorem length_bitsOf (u : Bytes) : (bitsOf u).length = 8 * u.length := by
  simp [bitsOf, byteBits, List.length_flatMap, Nat.mul_comm]

theorem length_bytesOf : ∀ v : List Bool, (bytesOf v).length = v.length / 8
  | _ :: _ :: _ :: _ :: _ :: _ :: _ :: _ :: rest => by
    simp only [bytesOf, List.length_cons, length_bytesOf rest]
    omega
  | [] | [_] | [_, _] | [_, _, _] | [_, _, _, _] | [_, _, _, _, _] | [_, _, _, _, _, _]
  | [_, _, _, _, _, _, _] => by simp [bytesOf]

/-- The generator that the search finds fits the parity region (R142). -/
theorem degree_searchBound_le (parity fuel t : Nat) (es : List Nat)
    (h : degreeOfExponents es ≤ 8 * parity) :
    degreeOfExponents (searchBound parity fuel t es).2 ≤ 8 * parity := by
  induction fuel generalizing t es with
  | zero => exact h
  | succ fuel ih =>
    simp only [searchBound]
    split
    · rename_i fits
      exact ih _ _ fits
    · exact h

theorem bchParityBits_le (parity : Nat) : bchParityBits parity ≤ 8 * parity :=
  degree_searchBound_le parity 1023 0 [] (Nat.zero_le _)

theorem length_bchEncode {b parity : Nat} {p : Bytes} (fits : p.length ≤ b - parity) :
    (bchEncode b parity p).length = b - parity + parity := by
  have roots : (((bchBoundExponents parity).2.flatMap cyclotomicCoset).map gf2048.genPow).length
      = bchParityBits parity := by
    rw [List.length_map, List.length_flatMap]
    rfl
  have region := bchParityBits_le parity
  rw [bchEncode, length_bytesOf, List.length_append, List.length_map, bchGenerator,
    length_encodeSystematic, roots, List.length_map, length_bitsOf, length_padPayload fits,
    List.length_replicate]
  omega

theorem bufferSize_le (cfg : Cfg) : cfg.bufferSize ≤ 255 := Nat.le_of_lt_succ cfg.b.isLt

theorem payloadSize_le (cfg : Cfg) : cfg.payloadSize ≤ 255 :=
  (Nat.sub_le _ _).trans (bufferSize_le cfg)

/-- What `encode` returns is the data itself or one codeword (R120, R136). -/
theorem length_codecEncode_le {cfg : Cfg} {p : Bytes} (fits : payloadAdmitted cfg p = true) :
    (codecEncode cfg p).length ≤ p.length + 510 := by
  have payload := payloadSize_le cfg
  have parity : cfg.parity ≤ 255 := Nat.le_of_lt_succ cfg.p.isLt
  unfold codecEncode
  split
  · exact Nat.le_add_right _ _
  · rename_i coded
    have short := ((payloadAdmitted_eq_true cfg p).1 fits).resolve_left coded
    rw [Cfg.payloadSize] at payload
    split
    · rw [length_rsEncode short]; omega
    · rw [length_bchEncode short]; omega

/-- What `decode` returns is the word itself or at most one payload (R120, R136). -/
theorem length_codecDecode_le {cfg : Cfg} {w payload : Bytes}
    (h : codecDecode cfg w = some payload) : payload.length ≤ w.length + 255 := by
  have size := payloadSize_le cfg
  rw [Cfg.payloadSize] at size
  unfold codecDecode at h
  split at h
  · cases h
    exact Nat.le_add_right _ _
  · split at h
    · obtain ⟨c, -, rfl⟩ := Option.map_eq_some_iff.1 h
      have := List.length_take_le (cfg.bufferSize - cfg.parity) c
      omega
    · obtain ⟨c, -, rfl⟩ := Option.map_eq_some_iff.1 h
      have := List.length_take_le (8 * (cfg.bufferSize - cfg.parity)) c
      rw [length_bytesOf, List.length_map]
      omega

/-- What the source hands over is one payload at most (R62, R70). -/
theorem payloadAdmitted_srcBytes (cfg : Cfg) (a : SrcAnswer) :
    payloadAdmitted cfg (srcBytes cfg.payloadSize a) = true :=
  (payloadAdmitted_eq_true _ _).2 (.inr (length_srcBytes_le _ a))

/-- `DLEN` can hold the length of whatever a command returns (R94). -/
theorem Effect.length_rdata_lt {i : Instr} {s u : State} {rdata : Bytes}
    (effect : Effect s i rdata u) (h : BlockInv s.blk) (fits : i.data.length ≤ 65535) :
    rdata.length < 2 ^ 32 := by
  cases effect with
  | encoded admitted =>
    have := length_codecEncode_le admitted
    simp only [Instr.data] at fits
    omega
  | decoded ok =>
    have := length_codecDecode_le ok
    simp only [Instr.data] at fits
    omega
  | pulled _ a =>
    have := length_srcBytes_le s.blk.cfg.payloadSize a
    have := payloadSize_le s.blk.cfg
    omega
  | pulledEncoded _ a =>
    have := length_codecEncode_le (payloadAdmitted_srcBytes s.blk.cfg a)
    have := length_srcBytes_le s.blk.cfg.payloadSize a
    have := payloadSize_le s.blk.cfg
    omega
  | finalized _ live =>
    have := (finalWalk_walkInv (h.toLive live)).reported
    have := h.high_le
    rw [length_lossRecords]
    omega
  | _ => exact Nat.two_pow_pos 32

/-! ### The response -/

/-- The layout of a response to a command word with these bits [63:56] (R94, R261). -/
structure LaidOut (op : Byte) (r : Response) : Prop where
  op_field : r.rsp0.extractLsb' 56 8 = op
  status : ∃ x : Status, r.rsp0.extractLsb' 48 8 = BitVec.ofNat 8 (codeNumber x)
  reserved : r.rsp0.extractLsb' 32 16 = 0#16
  dlen : (r.rsp0.extractLsb' 0 32).toNat = r.rdata.length
  empty : r.rsp0.extractLsb' 48 8 ≠ 0#8 → r.rsp1 = 0#64 ∧ r.rdata = []

theorem rsp0Word_laidOut (op : Byte) (x : Status) (value : Word64) (rdata : Bytes)
    (fits : rdata.length < 2 ^ 32) (empty : x ≠ .ok → value = 0#64 ∧ rdata = []) :
    LaidOut op ⟨rsp0Word op x rdata.length, value, rdata⟩ := by
  have status : (rsp0Word op x rdata.length).extractLsb' 48 8 = statusCode x := by
    simp (disch := decide) only [rsp0Word, extractLsb'_append_lowest,
      BitVec.extractLsb'_append_eq_of_le, Nat.reduceSub]
  refine ⟨?_, ⟨x, status.trans (statusCode_eq x)⟩, ?_, ?_, fun failed => empty fun ok => ?_⟩
  · simp (disch := decide) only [rsp0Word, BitVec.extractLsb'_append_eq_of_le, Nat.reduceSub,
      BitVec.extractLsb'_eq_self]
  · simp (disch := decide) only [rsp0Word, extractLsb'_append_lowest,
      BitVec.extractLsb'_append_eq_of_le, Nat.reduceSub]
  · simp only [rsp0Word, extractLsb'_append_lowest, BitVec.toNat_ofNat, Nat.mod_eq_of_lt fits]
  · subst ok
    exact failed status

/-- One response is given, of this layout, and nothing is taken from the inbox. -/
def Replies (op : Byte) (s t : State) : Prop :=
  t.env.inbox = s.env.inbox ∧ ∃ r, t.env.outbox = s.env.outbox ++ [r] ∧ LaidOut op r

theorem raise_replies {x : Status} (op : Byte) (s : State) : Replies op s (raise x op s) :=
  ⟨rfl, _, rfl, rsp0Word_laidOut op x 0#64 [] (by decide) fun _ => ⟨rfl, rfl⟩⟩

/-- No effect answers, or takes an event. -/
theorem Effect.keeps_ports {i : Instr} {s u : State} {rdata : Bytes} (effect : Effect s i rdata u) :
    u.env.inbox = s.env.inbox ∧ u.env.outbox = s.env.outbox := by
  cases effect with
  | stored e g sid data held =>
    have flushed := flushAll_onlyFlushed
      (putEntry g.toNat (entryOf s.blk.cfg (held ++ [(sid, data)])) (raiseHigh g.toNat s))
    exact ⟨flushed.inbox, flushed.outbox⟩
  | finalized => exact ⟨(finalWalk_onlyFlushed s).inbox, (finalWalk_onlyFlushed s).outbox⟩
  | _ => exact ⟨rfl, rfl⟩

theorem Ends.replies {i : Instr} {s t : State} (ends : Ends i s t) (h : BlockInv s.blk)
    (fits : i.data.length ≤ 65535) : Replies i.mnemonic.opcode s t := by
  cases ends with
  | raised x => exact raise_replies _ s
  | answered value effect =>
    obtain ⟨inbox, outbox⟩ := effect.keeps_ports
    exact ⟨inbox, _, congrArg (· ++ _) outbox,
      rsp0Word_laidOut _ .ok value _ (effect.length_rdata_lt h fits) fun notOk => absurd rfl notOk⟩

/-! ### The opcode of a decoded word -/

@[simp] theorem mnemonic_assemble (row : Mnemonic) (w : Word64) (data : Bytes) :
    (assemble row w data).mnemonic = row := by cases row <;> rfl

@[simp] theorem data_assemble (row : Mnemonic) (w : Word64) (data : Bytes) :
    (assemble row w data).data = data := by cases row <;> rfl

/-- Every mask covers the field `OP` (R97). -/
theorem opField_of_selects {w : Word64} {row : Mnemonic} (h : selects w row = true) :
    opField w = row.opcode := by
  have masked : w &&& row.mask = row.pattern := by simpa [selects] using h
  have covers : opField row.mask = BitVec.allOnes 8 := by cases row <;> decide
  calc opField w = opField w &&& opField row.mask := by rw [covers, BitVec.and_allOnes]
    _ = opField (w &&& row.mask) := BitVec.extractLsb'_and.symm
    _ = opField row.pattern := by rw [masked]
    _ = row.opcode := by cases row <;> decide

/-- Settles O12: a word that selects no row is answered like any other, with its own bits [63:56]. -/
theorem oneResponsePerCommand : Obligations.OneResponsePerCommand := by
  intro s x rest h inbox fits
  have runs : ∃ t, step s = .next t ∧ Replies (opField x.word) (takeEvent s) t := by
    rw [step_of_command inbox]
    obtain ⟨t, ran⟩ := runTransfer_of_fits fits (takeEvent s)
    refine ⟨t, ran, ?_⟩
    obtain ⟨i, decoded, exec⟩ | ⟨-, rfl⟩ := runTransfer_next_cases ran
    · obtain ⟨-, no⟩ | ⟨-, -, no⟩ | ⟨-, row, selected, legal⟩ := decode_cases x
      · simp [no] at decoded
      · simp [no] at decoded
      · obtain rfl : assemble row x.word x.data = i := Except.ok.inj (legal.symm.trans decoded)
        have replies := (ends_of_exec exec).replies h (by simpa using fits)
        rwa [mnemonic_assemble, ← opField_of_selects selected] at replies
    · exact raise_replies _ _
  obtain ⟨t, next, taken, r, outbox, laidOut⟩ := runs
  exact ⟨t, r, next, by simpa [inbox] using taken, outbox, laidOut.op_field, laidOut.status,
    laidOut.reserved, laidOut.dlen, laidOut.empty⟩

end Sys2Proof.Machine
end

/-! ## The answers of the source -/

section
namespace Sys2Proof.Machine

theorem srcCount_ge (n : Nat) (a : SrcAnswer) : -32768 ≤ srcCount n a := by
  cases a <;> simp only [srcCount] <;> omega

/-- The bytes of an answer are as many as its count says, none where it is negative (R62). -/
theorem length_srcBytes (n : Nat) (a : SrcAnswer) :
    ((srcBytes n a).length : Int) = max (srcCount n a) 0 := by
  obtain pos | nonpos := lt_or_ge 0 (srcCount n a)
  · rw [max_eq_left pos.le, srcCount_of_pos pos]
  · cases a with
    | bytes l => exact (max_eq_left (Int.natCast_nonneg _)).symm
    | ended k => exact (max_eq_right nonpos).symm

/-- Every pair in the range of R62 is an answer: an end where there are no bytes, else the bytes. -/
theorem exists_srcAnswer {n : Nat} {count : Int} {bytes : Bytes} (lo : -32768 ≤ count)
    (hi : count ≤ (n : Int)) (whole : (bytes.length : Int) = max count 0) :
    ∃ a, srcCount n a = count ∧ srcBytes n a = bytes := by
  obtain pos | nonpos := lt_or_ge 0 count
  · rw [max_eq_left pos.le] at whole
    have all : bytes.take n = bytes := List.take_of_length_le (by omega)
    exact ⟨.bytes bytes, by rw [srcCount, all, whole], all⟩
  · rw [max_eq_right nonpos] at whole
    have empty : bytes = [] := List.eq_nil_of_length_eq_zero (by omega)
    exact ⟨.ended ⟨count.natAbs, by omega⟩, by simp only [srcCount]; omega, empty.symm⟩

/-- Settles O20: the range of every answer, and an answer for every pair in it. -/
theorem sourceAnswersCoverTheRange : Obligations.SourceAnswersCoverTheRange :=
  ⟨fun n a => ⟨srcCount_ge n a, srcCount_le n a, length_srcBytes n a⟩,
    fun _ _ _ lo hi whole => exists_srcAnswer lo hi whole⟩

end Sys2Proof.Machine
end

/-! ## A command that the port takes -/

section
namespace Sys2Proof.Machine

theorem takeEvent_eq {s : State} {event : PortEvent} {rest : List PortEvent}
    (h : s.env.inbox = event :: rest) :
    takeEvent s = { s with env := { s.env with inbox := rest } } := by
  simp [takeEvent, h]

/-- Settles O5: the step runs the transfer at the state from whose inbox it has been taken. -/
theorem stepRunsDecodedCommand : Obligations.StepRunsDecodedCommand := by
  intro s x rest i inbox decoded
  rw [step_of_command inbox, runTransfer, decoded, takeEvent_eq inbox]

end Sys2Proof.Machine
end

/-! ## The calls of a command -/

section
namespace Sys2Proof.Machine

theorem worldAfterCalls_nil (env : World) : worldAfterCalls [] env = env := by
  simp [worldAfterCalls]

theorem worldAfterCalls_append (a b : List Call) (env : World) :
    worldAfterCalls (a ++ b) env = worldAfterCalls b (worldAfterCalls a env) := by
  simp [worldAfterCalls]

/-! ### One primitive -/

theorem srcRead_env (n : Nat) (s : State) :
    (srcRead n s).env = worldAfterCalls
      [.srcRead n (srcCount n (nextSrcAnswer s.env)) (srcBytes n (nextSrcAnswer s.env))] s.env := by
  simp [srcRead, worldAfterCalls, isSrcRead, isSrcOk, isSinkOk, isDcpPush]

theorem srcOk_env (s : State) :
    (srcOk s).env = worldAfterCalls [.srcOk (nextSrcOk s.env)] s.env := by
  simp [srcOk, worldAfterCalls, isSrcRead, isSrcOk, isSinkOk, isDcpPush]

theorem sinkOk_env (s : State) :
    (sinkOk s).env = worldAfterCalls [.sinkOk (nextSinkOk s.env)] s.env := by
  simp [sinkOk, worldAfterCalls, isSrcRead, isSrcOk, isSinkOk, isDcpPush]

theorem sinkWrite_env (bytes : Bytes) (s : State) :
    (sinkWrite bytes s).env = worldAfterCalls [.sinkWrite bytes] s.env := by
  simp [sinkWrite, worldAfterCalls, isSrcRead, isSrcOk, isSinkOk, isDcpPush]

theorem dcpPush_env (offset : Nat) (bytes : Bytes) (s : State) :
    (dcpPush offset bytes s).env
      = worldAfterCalls [.dcpPush offset bytes (nextDcpFault s.env)] s.env := by
  simp [dcpPush, worldAfterCalls, isSrcRead, isSrcOk, isSinkOk, isDcpPush]

/-! ### A command -/

/-- Between `s` and `t` the surroundings have seen primitive calls and nothing else (R72). -/
def OnlyCalls (s t : State) : Prop := ∃ made, t.env = worldAfterCalls made s.env

theorem OnlyCalls.of_env_eq {s t : State} (h : t.env = s.env) : OnlyCalls s t :=
  ⟨[], h.trans (worldAfterCalls_nil s.env).symm⟩

theorem OnlyCalls.flush {s t : State} (h : OnlyCalls s t) (g : Nat) (payload : Bytes) :
    OnlyCalls s (flush g payload t) := by
  obtain ⟨made, h⟩ := h
  exact ⟨_, by rw [flush_env, dcpPush_env, h, ← worldAfterCalls_append]⟩

/-- The flush loop only pushes. -/
theorem flushAll_onlyCalls (s : State) : OnlyCalls s (flushAll s).1 :=
  flushLoop_induct (fun t _ => OnlyCalls s t) (fun _ _ payload _ _ h => h.flush _ payload) _ _ _
    (.of_env_eq rfl)

/-- The walk of `FINALIZE` only pushes. -/
theorem finalWalk_onlyCalls (s : State) : OnlyCalls s (finalWalk s).st :=
  finalWalk_induct (fun w _ => OnlyCalls s w.st) s (.of_env_eq rfl) fun w g _ _ h => by
    obtain ⟨payload, -, e⟩ | e := finalVisit_cases w g
    · exact e ▸ h.flush g payload
    · exact e ▸ h

theorem Effect.onlyCalls {i : Instr} {s u : State} {rdata : Bytes} (effect : Effect s i rdata u) :
    OnlyCalls s u := by
  cases effect with
  | sampledSource => exact ⟨_, srcOk_env s⟩
  | sampledSink => exact ⟨_, sinkOk_env s⟩
  | sourceEnded | pulled | pulledEncoded => exact ⟨_, srcRead_env _ s⟩
  | passed | wroteDecoded | wroteMarker => exact ⟨_, sinkWrite_env _ s⟩
  | stored => exact flushAll_onlyCalls _
  | finalized => exact finalWalk_onlyCalls s
  | _ => exact .of_env_eq rfl

/-- From `s` to `t` these calls have been made and, responses apart, the surroundings have seen no more. -/
def Called (made : List Call) (s t : State) : Prop :=
  { t.env with outbox := s.env.outbox } = worldAfterCalls made s.env

theorem raise_called (x : Status) (op : Byte) (s : State) : Called [] s (raise x op s) :=
  (worldAfterCalls_nil s.env).symm

theorem Ends.called {i : Instr} {s t : State} (ends : Ends i s t) : ∃ made, Called made s t := by
  cases ends with
  | raised x => exact ⟨[], raise_called x _ s⟩
  | @answered value rdata u effect =>
    obtain ⟨made, h⟩ := effect.onlyCalls
    refine ⟨made, ?_⟩
    change { u.env with outbox := s.env.outbox } = worldAfterCalls made s.env
    rw [h]
    rfl

theorem runTransfer_called {x : Transfer} {s t : State} (ran : runTransfer x s = .next t) :
    ∃ made, Called made s t := by
  obtain ⟨i, -, exec⟩ | ⟨-, rfl⟩ := runTransfer_next_cases ran
  · exact (ends_of_exec exec).called
  · exact ⟨[], raise_called _ _ s⟩

theorem Called.calls {made : List Call} {s t : State} (h : Called made s t) :
    t.env.calls = s.env.calls ++ made := congrArg World.calls h

/-- Of an abandoned command the first calls stay made (R300). -/
theorem Called.abandon_env {calls : List Call} {s u : State} (h : Called calls s u) (made : Nat)
    (straps : Cfg) : (abandon made straps s u).env = worldAfterCalls (calls.take made) s.env := by
  rw [Machine.abandon_env, h.calls, List.drop_left]

/-- Settles O8: the whole command, run on the same transfer, names the calls of which the first stay made. -/
theorem resetAbandonsCommand : Obligations.ResetAbandonsCommand := by
  intro s x made straps rest inbox fits
  have taken := takeEvent_eq inbox
  obtain ⟨u, ran⟩ := runTransfer_of_fits fits (takeEvent s)
  obtain ⟨calls, called⟩ := runTransfer_called ran
  have env := called.abandon_env made straps
  refine ⟨abandon made straps (takeEvent s) u, u, calls, ?_, called.calls, ?_, rfl, ?_, ?_, ?_, ?_⟩
  · rw [step_of_command rfl, takeEvent_eq rfl, ← ran, taken]
  · rw [step_of_resetDuring inbox, ran]
    rfl
  · rw [env, worldAfterCalls_calls, takeEvent_calls]
  · rw [env, worldAfterCalls_outbox, takeEvent_outbox]
  · rw [env, worldAfterCalls_inbox, takeEvent_inbox, inbox, List.tail_cons]
  · intro all
    rw [env, List.take_of_length_le all]
    exact called.symm

end Sys2Proof.Machine
end

/-! ## What the codec and the adapter do not see -/

section
namespace Sys2Proof.Machine

/-! ### Two runs of one command -/

/-- `t` looks like `s` to the codec and the adapter: all that they read is equal. -/
structure LooksLike (s t : State) : Prop where
  cfg : t.blk.cfg = s.blk.cfg
  cfgOk : t.blk.cfgOk = s.blk.cfgOk
  encGood : t.blk.encGood = s.blk.encGood
  decGood : t.blk.decGood = s.blk.decGood
  srcAnswer : nextSrcAnswer t.env = nextSrcAnswer s.env
  srcOkAnswer : nextSrcOk t.env = nextSrcOk s.env
  sinkOkAnswer : nextSinkOk t.env = nextSinkOk s.env

/-- The relation `R` is out of sight of the codec and the adapter: states that it relates look alike, and
what these commands do to two related states keeps them related. -/
structure OutOfSight (R : State → State → Prop) : Prop where
  looksLike {s t : State} : R s t → LooksLike s t
  raise {s t : State} (x : Status) (op : Byte) : R s t → R (raise x op s) (raise x op t)
  respond {s t : State} (op : Byte) (value : Word64) (rdata : Bytes) :
    R s t → R (respond op value rdata s) (respond op value rdata t)
  srcRead {s t : State} (n : Nat) : R s t → R (srcRead n s) (srcRead n t)
  srcOk {s t : State} : R s t → R (srcOk s) (srcOk t)
  sinkOk {s t : State} : R s t → R (sinkOk s) (sinkOk t)
  sinkWrite {s t : State} (bytes : Bytes) : R s t → R (sinkWrite bytes s) (sinkWrite bytes t)
  clearEncGood {s t : State} : R s t → R (clearEncGood s) (clearEncGood t)
  recordDecoded {s t : State} : R s t → R (recordDecoded s) (recordDecoded t)
  recordBadChunk {s t : State} : R s t → R (recordBadChunk s) (recordBadChunk t)

section
variable {R : State → State → Prop} {s t : State}

theorem OutOfSight.guarded (sight : OutOfSight R) (h : R s t) (op : Byte) (admitted : Bool)
    {body body' : State → State} (hbody : R (body s) (body' t)) :
    R (guarded op admitted body s) (guarded op admitted body' t) := by
  unfold Machine.guarded
  rw [(sight.looksLike h).cfgOk]
  split
  · exact sight.raise _ op h
  · split
    · exact sight.raise _ op h
    · exact hbody

theorem OutOfSight.lengthGuarded (sight : OutOfSight R) (h : R s t) (op : Byte) (admitted : Bool)
    {body : State → State} (hbody : R (body s) (body t)) :
    R (lengthGuarded op admitted body s) (lengthGuarded op admitted body t) := by
  unfold Machine.lengthGuarded
  split
  · exact sight.raise _ op h
  · exact hbody

theorem OutOfSight.respondDecoded (sight : OutOfSight R) (h : R s t) (op : Byte)
    (result : Option Bytes) : R (respondDecoded op result s) (respondDecoded op result t) := by
  cases result with
  | some payload => exact sight.respond op _ payload h
  | none => exact sight.respond op _ [] h

theorem OutOfSight.answerRead (sight : OutOfSight R) (h : R s t) (op : Byte) (count : Int)
    (bytes : Bytes) : R (answerRead op count bytes s) (answerRead op count bytes t) := by
  unfold Machine.answerRead
  rw [(sight.looksLike h).cfg]
  split
  · exact sight.respond op _ [] (sight.clearEncGood h)
  · split
    · exact sight.respond op _ _ h
    · exact sight.respond op _ bytes h

theorem OutOfSight.readPath (sight : OutOfSight R) (h : R s t) (op : Byte) :
    R (readPath op s) (readPath op t) := by
  unfold Machine.readPath
  rw [(sight.looksLike h).cfg, (sight.looksLike h).srcAnswer]
  exact sight.answerRead (sight.srcRead _ h) op _ _

theorem OutOfSight.writePath (sight : OutOfSight R) (h : R s t) (op : Byte) (data : Bytes) :
    R (writePath op data s) (writePath op data t) := by
  unfold Machine.writePath writeErasurePlaceholder
  rw [(sight.looksLike h).cfg]
  split
  · exact sight.respond op _ [] (sight.sinkWrite data h)
  · cases codecDecode s.blk.cfg data with
    | some payload => exact sight.respond op _ [] (sight.recordDecoded (sight.sinkWrite payload h))
    | none => exact sight.respond op _ [] (sight.recordBadChunk (sight.sinkWrite _ h))

/-- The commands that neither change nor report the state of the sink (R272). -/
def isAdapter : Instr → Bool
  | .nop _ | .enc _ | .dec _ | .rd _ | .wr _ | .goode _ | .goodd _ => true
  | .accept _ _ _ _ | .finalize _ | .rdreg _ _ => false

/-- From related states a command of the codec or the adapter leads to related states. -/
theorem OutOfSight.exec (sight : OutOfSight R) (h : R s t) {i : Instr} (adapter : isAdapter i = true) :
    ∃ u v, exec i s = .next u ∧ exec i t = .next v ∧ R u v := by
  have looks := sight.looksLike h
  cases i with
  | accept | finalize | rdreg => cases adapter
  | nop data => exact ⟨_, _, rfl, rfl, sight.lengthGuarded h _ _ (sight.respond _ _ _ h)⟩
  | enc data =>
    refine ⟨_, _, rfl, rfl, ?_⟩
    rw [looks.cfg]
    exact sight.guarded h _ _ (sight.respond _ _ _ h)
  | dec data =>
    refine ⟨_, _, rfl, rfl, ?_⟩
    rw [looks.cfg]
    exact sight.guarded h _ _ (sight.respondDecoded h _ _)
  | rd data => exact ⟨_, _, rfl, rfl, sight.guarded h _ _ (sight.readPath h _)⟩
  | wr data =>
    refine ⟨_, _, rfl, rfl, ?_⟩
    rw [looks.cfg]
    exact sight.guarded h _ _ (sight.writePath h _ data)
  | goode data =>
    refine ⟨_, _, rfl, rfl, sight.guarded h _ _ ?_⟩
    rw [looks.encGood, looks.srcOkAnswer]
    exact sight.respond _ _ _ (sight.srcOk h)
  | goodd data =>
    refine ⟨_, _, rfl, rfl, sight.guarded h _ _ ?_⟩
    rw [looks.decGood, looks.sinkOkAnswer]
    exact sight.respond _ _ _ (sight.sinkOk h)

end

/-! ### The state of the sink -/

/-- `s` with the state of the sink that `b` has: its phase, cursors, table, counters and flags. -/
def withSink (b : Block) (s : State) : State :=
  { s with blk := { s.blk with
      phase := b.phase, summary := b.summary, nextGroup := b.nextGroup, high := b.high, gt := b.gt
      bytesRecovered := b.bytesRecovered, cntGroupsFlushed := b.cntGroupsFlushed
      cntDcpFault := b.cntDcpFault, dcpFault := b.dcpFault, overflow := b.overflow } }

/-- Another state of the sink is out of sight: nothing that these commands do reads or writes it. -/
theorem withSink_outOfSight (b : Block) : OutOfSight fun s t => t = withSink b s where
  looksLike := by rintro s _ rfl; exact ⟨rfl, rfl, rfl, rfl, rfl, rfl, rfl⟩
  raise _ _ := by rintro rfl; rfl
  respond _ _ _ := by rintro rfl; rfl
  srcRead _ := by rintro rfl; rfl
  srcOk := by rintro s _ rfl; rfl
  sinkOk := by rintro s _ rfl; rfl
  sinkWrite _ := by rintro rfl; rfl
  clearEncGood := by rintro s _ rfl; rfl
  recordDecoded := by rintro s _ rfl; rfl
  recordBadChunk := by rintro s _ rfl; rfl

/-- Settles O25: the two runs stay apart by the state of the sink alone. -/
theorem adapterIgnoresSinkState : Obligations.AdapterIgnoresSinkState := by
  intro i s phase summary next high gt bytesRecovered cntFlushed cntDcp dcpFault overflow
    noAccept noFinalize noRdreg
  have adapter : isAdapter i = true := by
    cases i with
    | accept e g sid data => exact absurd rfl (noAccept e g sid data)
    | finalize data => exact absurd rfl (noFinalize data)
    | rdreg r data => exact absurd rfl (noRdreg r data)
    | _ => rfl
  have sight := withSink_outOfSight { s.blk with
    phase := phase, summary := summary, nextGroup := next, high := high, gt := gt
    bytesRecovered := bytesRecovered, cntGroupsFlushed := cntFlushed, cntDcpFault := cntDcp
    dcpFault := dcpFault, overflow := overflow }
  obtain ⟨t, _, run, run', rfl⟩ := sight.exec (s := s) rfl adapter
  exact ⟨t, run, run'⟩

end Sys2Proof.Machine
end

/-! ## What the Decompression Stage answers -/

section
namespace Sys2Proof.Machine

/-! ### Two runs that differ in the answers -/

/-- `s` as it were had the stage answered otherwise: the two fault records, the pushes recorded with their
answers, and the answers still to come. -/
def withPushAnswers (dcpFault : Bool) (cntDcpFault : Word64) (calls : List Call) (answers : List Bool)
    (s : State) : State where
  blk := { s.blk with dcpFault := dcpFault, cntDcpFault := cntDcpFault }
  env := { s.env with calls := calls, dcpAnswers := answers }

/-- `t` is `s` but for what the stage answered: the calls are the same but for the answers to the pushes. -/
def SameButPushAnswers (s t : State) : Prop :=
  ∃ dcpFault cntDcpFault calls answers,
    calls.map withoutPushAnswer = s.env.calls.map withoutPushAnswer
      ∧ t = withPushAnswers dcpFault cntDcpFault calls answers s

/-- Both runs have made equally many calls, so that they take the same free values (log 4). -/
theorem length_eq_of_map_withoutPushAnswer {a b : List Call}
    (h : a.map withoutPushAnswer = b.map withoutPushAnswer) : a.length = b.length := by
  simpa using congrArg List.length h

/-- A further call of each run, the same but for an answer to a push. -/
theorem map_withoutPushAnswer_snoc {a b : List Call}
    (h : a.map withoutPushAnswer = b.map withoutPushAnswer) {c d : Call}
    (same : withoutPushAnswer c = withoutPushAnswer d) :
    (a ++ [c]).map withoutPushAnswer = (b ++ [d]).map withoutPushAnswer := by
  simp [h, same]

/-- What neither calls a primitive nor touches the fault records does the same in both runs. -/
theorem SameButPushAnswers.congr {f : State → State} {s t : State} (h : SameButPushAnswers s t)
    (calls : (f s).env.calls = s.env.calls)
    (commutes : ∀ dcpFault cntDcpFault calls answers,
      f (withPushAnswers dcpFault cntDcpFault calls answers s)
        = withPushAnswers dcpFault cntDcpFault calls answers (f s)) :
    SameButPushAnswers (f s) (f t) := by
  obtain ⟨_, _, _, _, same, rfl⟩ := h
  exact ⟨_, _, _, _, calls ▸ same, commutes _ _ _ _⟩

theorem SameButPushAnswers.looksLike {s t : State} (h : SameButPushAnswers s t) : LooksLike s t := by
  obtain ⟨_, _, calls, _, same, rfl⟩ := h
  have made := length_eq_of_map_withoutPushAnswer same
  exact ⟨rfl, rfl, rfl, rfl,
    congrArg (fun n => nextAnswer s.env.srcAnswers (Config.freeSrcAnswer n)) made,
    congrArg (fun n => nextAnswer s.env.srcOkAnswers (Config.freeSrcOk n)) made,
    congrArg (fun n => nextAnswer s.env.sinkOkAnswers (Config.freeSinkOk n)) made⟩

/-- The answers of the stage are out of sight of the codec and the adapter. -/
theorem sameButPushAnswers_outOfSight : OutOfSight SameButPushAnswers where
  looksLike := SameButPushAnswers.looksLike
  raise _ _ h := h.congr rfl fun _ _ _ _ => rfl
  respond _ _ _ h := h.congr rfl fun _ _ _ _ => rfl
  srcRead {s t} n h := by
    have answer := h.looksLike.srcAnswer
    obtain ⟨_, _, _, _, same, rfl⟩ := h
    exact ⟨_, _, _, _, map_withoutPushAnswer_snoc same (by rw [answer]), rfl⟩
  srcOk {s t} h := by
    have answer := h.looksLike.srcOkAnswer
    obtain ⟨_, _, _, _, same, rfl⟩ := h
    exact ⟨_, _, _, _, map_withoutPushAnswer_snoc same (by rw [answer]), rfl⟩
  sinkOk {s t} h := by
    have answer := h.looksLike.sinkOkAnswer
    obtain ⟨_, _, _, _, same, rfl⟩ := h
    exact ⟨_, _, _, _, map_withoutPushAnswer_snoc same (by rw [answer]), rfl⟩
  sinkWrite _ h := by
    obtain ⟨_, _, _, _, same, rfl⟩ := h
    exact ⟨_, _, _, _, map_withoutPushAnswer_snoc same rfl, rfl⟩
  clearEncGood h := h.congr rfl fun _ _ _ _ => rfl
  recordDecoded h := h.congr rfl fun _ _ _ _ => rfl
  recordBadChunk h := h.congr rfl fun _ _ _ _ => rfl

/-! ### The sink -/

section
variable {s t : State}

theorem SameButPushAnswers.gt (h : SameButPushAnswers s t) : t.blk.gt = s.blk.gt := by
  obtain ⟨_, _, _, _, -, rfl⟩ := h; rfl

theorem SameButPushAnswers.nextGroup (h : SameButPushAnswers s t) :
    t.blk.nextGroup = s.blk.nextGroup := by
  obtain ⟨_, _, _, _, -, rfl⟩ := h; rfl

theorem SameButPushAnswers.high (h : SameButPushAnswers s t) : t.blk.high = s.blk.high := by
  obtain ⟨_, _, _, _, -, rfl⟩ := h; rfl

theorem SameButPushAnswers.phase (h : SameButPushAnswers s t) : t.blk.phase = s.blk.phase := by
  obtain ⟨_, _, _, _, -, rfl⟩ := h; rfl

theorem SameButPushAnswers.summary (h : SameButPushAnswers s t) : t.blk.summary = s.blk.summary := by
  obtain ⟨_, _, _, _, -, rfl⟩ := h; rfl

theorem SameButPushAnswers.cfg (h : SameButPushAnswers s t) : t.blk.cfg = s.blk.cfg := h.looksLike.cfg

theorem SameButPushAnswers.respond (h : SameButPushAnswers s t) (op : Byte) (value : Word64)
    (rdata : Bytes) : SameButPushAnswers (respond op value rdata s) (respond op value rdata t) :=
  sameButPushAnswers_outOfSight.respond op value rdata h

/-- The one place where the answers differ: each run records its own (R215, R217). -/
theorem SameButPushAnswers.flush (h : SameButPushAnswers s t) (g : Nat) (payload : Bytes) :
    SameButPushAnswers (flush g payload s) (flush g payload t) := by
  obtain ⟨_, _, _, _, same, rfl⟩ := h
  refine ⟨_, _, _, _, ?_, rfl⟩
  exact map_withoutPushAnswer_snoc same rfl

theorem SameButPushAnswers.advanceCursor (h : SameButPushAnswers s t) :
    SameButPushAnswers (advanceCursor s) (advanceCursor t) :=
  h.congr rfl fun _ _ _ _ => rfl

theorem SameButPushAnswers.abandonEntry (h : SameButPushAnswers s t) (g : Nat) :
    SameButPushAnswers (abandonEntry g s) (abandonEntry g t) :=
  h.congr rfl fun _ _ _ _ => rfl

theorem SameButPushAnswers.endSession (h : SameButPushAnswers s t) (lost : List Nat) :
    SameButPushAnswers (endSession lost s) (endSession lost t) :=
  h.congr rfl fun _ _ _ _ => rfl

theorem SameButPushAnswers.raiseHigh (h : SameButPushAnswers s t) (g : Nat) :
    SameButPushAnswers (raiseHigh g s) (raiseHigh g t) :=
  h.congr rfl fun _ _ _ _ => rfl

theorem SameButPushAnswers.setOverflow (h : SameButPushAnswers s t) :
    SameButPushAnswers (setOverflow s) (setOverflow t) :=
  h.congr rfl fun _ _ _ _ => rfl

theorem SameButPushAnswers.putEntry (h : SameButPushAnswers s t) (g : Nat) (e : GroupEntry) :
    SameButPushAnswers (putEntry g e s) (putEntry g e t) :=
  h.congr rfl fun _ _ _ _ => rfl

/-! ### `ACCEPT` -/

/-- Both runs flush the same groups. -/
theorem SameButPushAnswers.flushLoop (h : SameButPushAnswers s t) (fuel n : Nat) :
    SameButPushAnswers (flushLoop fuel n s).1 (flushLoop fuel n t).1
      ∧ (flushLoop fuel n t).2 = (flushLoop fuel n s).2 := by
  induction fuel generalizing n s t with
  | zero => exact ⟨h, rfl⟩
  | succ fuel ih =>
    by_cases le : s.blk.nextGroup ≤ 65535
    · cases hp : resolvedPayload s.blk.gt s.blk.nextGroup with
      | none =>
        rw [flushLoop_stop _ _ s hp, flushLoop_stop _ _ t (by rw [h.gt, h.nextGroup, hp])]
        exact ⟨h, rfl⟩
      | some payload =>
        rw [flushLoop_turn _ _ s payload le hp, flushLoop_turn _ _ t payload (h.nextGroup ▸ le)
          (by rw [h.gt, h.nextGroup, hp]), h.nextGroup]
        exact ih (h.flush _ payload).advanceCursor _
    · rw [flushLoop_past_end _ _ s (Nat.lt_of_not_le le),
        flushLoop_past_end _ _ t (h.nextGroup ▸ Nat.lt_of_not_le le)]
      exact ⟨h, rfl⟩

theorem SameButPushAnswers.acceptWithout (h : SameButPushAnswers s t) (op : Byte) (disp : Disposition) :
    SameButPushAnswers (acceptWithout op disp s) (acceptWithout op disp t) := h.respond op _ []

theorem SameButPushAnswers.acceptFlush (h : SameButPushAnswers s t) (op : Byte) (attempted now : Bool) :
    SameButPushAnswers (acceptFlush op attempted now s) (acceptFlush op attempted now t) := by
  obtain ⟨flushed, count⟩ := h.flushLoop s.blk.gt.length 0
  unfold Machine.acceptFlush flushAll
  rw [h.gt, count]
  exact flushed.respond op _ []

theorem SameButPushAnswers.acceptStored (h : SameButPushAnswers s t) (op : Byte) (g : Nat)
    (syms : List Symbol) :
    SameButPushAnswers (acceptStored op g syms s) (acceptStored op g syms t) := by
  unfold Machine.acceptStored
  rw [h.cfg]
  split
  · cases reconstruct s.blk.cfg.sourceChunks s.blk.cfg.chunkSize syms with
    | some payload => exact (h.putEntry g _).acceptFlush op true true
    | none => exact (h.putEntry g _).acceptFlush op true false
  · exact (h.putEntry g _).acceptFlush op false false

theorem SameButPushAnswers.acceptSymbol (h : SameButPushAnswers s t) (op : Byte) (g : Nat) (sid : Id16)
    (chunk : Bytes) (syms : List Symbol) :
    SameButPushAnswers (acceptSymbol op g sid chunk syms s) (acceptSymbol op g sid chunk syms t) := by
  unfold Machine.acceptSymbol
  rw [h.cfg]
  split
  · exact h.acceptWithout op _
  · split
    · exact h.setOverflow.acceptWithout op _
    · exact h.acceptStored op g _

theorem SameButPushAnswers.acceptRouted (h : SameButPushAnswers s t) (op : Byte) (g : Nat) (sid : Id16)
    (chunk : Bytes) :
    SameButPushAnswers (acceptRouted op g sid chunk s) (acceptRouted op g sid chunk t) := by
  unfold Machine.acceptRouted
  rw [h.gt, h.cfg]
  cases gtGet s.blk.gt g with
  | none =>
    simp only
    split
    · exact h.setOverflow.acceptWithout op _
    · exact (h.putEntry g _).acceptSymbol op g sid chunk []
  | some entry =>
    cases entry with
    | resolved payload => exact h.acceptWithout op _
    | collecting syms => exact h.acceptSymbol op g sid chunk syms

theorem SameButPushAnswers.acceptChunk (h : SameButPushAnswers s t) (op : Byte) (e : Bool) (g : Nat)
    (sid : Id16) (chunk : Bytes) :
    SameButPushAnswers (acceptChunk op e g sid chunk s) (acceptChunk op e g sid chunk t) := by
  unfold Machine.acceptChunk
  rw [h.phase, h.nextGroup]
  split
  · exact h.acceptWithout op _
  · split
    · exact h.acceptWithout op _
    · split
      · exact h.acceptWithout op _
      · exact (h.raiseHigh g).acceptRouted op g sid chunk

/-! ### `FINALIZE` -/

theorem finalVisit_of_some {w : FinalWalk} {g : Nat} {payload : Bytes}
    (hp : resolvedPayload w.st.blk.gt g = some payload) :
    finalVisit w g = ⟨flush g payload w.st, w.flushedN + 1, w.lost⟩ := by
  simp [finalVisit, hp]

theorem finalVisit_of_none {w : FinalWalk} {g : Nat} (hp : resolvedPayload w.st.blk.gt g = none) :
    finalVisit w g = ⟨abandonEntry g w.st, w.flushedN, w.lost ++ [g]⟩ := by
  simp [finalVisit, abandonEntry, hp]

/-- Two walks that have flushed and reported the same groups. -/
structure SameWalk (w v : FinalWalk) : Prop where
  st : SameButPushAnswers w.st v.st
  flushedN : v.flushedN = w.flushedN
  lost : v.lost = w.lost

theorem SameWalk.visit {w v : FinalWalk} (h : SameWalk w v) (g : Nat) :
    SameWalk (finalVisit w g) (finalVisit v g) := by
  have held : resolvedPayload v.st.blk.gt g = resolvedPayload w.st.blk.gt g := by rw [h.st.gt]
  cases hp : resolvedPayload w.st.blk.gt g with
  | some payload =>
    rw [finalVisit_of_some hp, finalVisit_of_some (held.trans hp)]
    exact ⟨h.st.flush g payload, congrArg (· + 1) h.flushedN, h.lost⟩
  | none =>
    rw [finalVisit_of_none hp, finalVisit_of_none (held.trans hp)]
    exact ⟨h.st.abandonEntry g, h.flushedN, congrArg (· ++ [g]) h.lost⟩

theorem SameButPushAnswers.finalWalk (h : SameButPushAnswers s t) :
    SameWalk (finalWalk s) (finalWalk t) := by
  unfold Machine.finalWalk
  rw [h.nextGroup, h.high]
  exact List.foldl_rel ⟨h, rfl, rfl⟩ fun g _ _ _ same => same.visit g

theorem SameButPushAnswers.finalizeSession (h : SameButPushAnswers s t) (op : Byte) :
    SameButPushAnswers (finalizeSession op s) (finalizeSession op t) := by
  unfold Machine.finalizeSession
  rw [h.phase]
  cases s.blk.phase with
  | live =>
    have walk := h.finalWalk
    have ended := walk.st.endSession (Machine.finalWalk s).lost
    simp only [walk.lost, walk.flushedN, h.cfg, ended.summary]
    exact ended.respond op _ _
  | finalized =>
    simp only [h.summary]
    exact h.respond op _ []

end

/-! ### Every command -/

/-- The same state but for the answers of the stage to come. -/
theorem sameButPushAnswers_of_answers (s : State) (answers : List Bool) :
    SameButPushAnswers s { s with env := { s.env with dcpAnswers := answers } } :=
  ⟨_, _, _, answers, rfl, rfl⟩

/-- `RDREG` alone reads the fault records; it finds them as they stood before the command, the same in
both runs. -/
theorem exec_sameButPushAnswers (i : Instr) (s : State) (answers : List Bool) :
    ∃ t u, exec i s = .next t
      ∧ exec i { s with env := { s.env with dcpAnswers := answers } } = .next u
      ∧ SameButPushAnswers t u := by
  have h := sameButPushAnswers_of_answers s answers
  have sight := sameButPushAnswers_outOfSight
  cases i with
  | accept e g sid data =>
    exact ⟨_, _, rfl, rfl, sight.guarded h _ _ (h.acceptChunk _ e g.toNat sid data)⟩
  | finalize data => exact ⟨_, _, rfl, rfl, sight.guarded h _ _ (h.finalizeSession _)⟩
  | rdreg r data =>
    refine ⟨_, _, rfl, rfl, ?_⟩
    cases regRead s.blk r with
    | none => exact sight.raise _ _ h
    | some value => exact sight.lengthGuarded h _ _ (h.respond _ value [])
  | _ => exact sight.exec h rfl

/-- Settles O34: both runs of a command stay the same but for the answers of the stage. -/
theorem pushAnswersChangeOnlyFaultRecords : Obligations.PushAnswersChangeOnlyFaultRecords := by
  intro i s answers
  obtain ⟨t, u, run, run', dcpFault, cntDcpFault, calls, rest, same, rfl⟩ :=
    exec_sameButPushAnswers i s answers
  refine ⟨t, _, run, run', rfl, rfl, rfl, rfl, rfl, rfl, same, ?_,
    length_eq_of_map_withoutPushAnswer same⟩
  rw [← pushesOf_withoutPushAnswer t.env.calls, ← same, pushesOf_withoutPushAnswer]
  rfl

end Sys2Proof.Machine
end

/-! ## The encoding of a command -/

section
namespace Sys2Proof

open Machine Laws

/-! ### What the decoder reads from an encoded command -/

/-- Every command word selects its command's own row (R97). -/
theorem selects_word (i : Instr) : selects i.word i.mnemonic = true := by
  cases i with
  | nop data => exact (RowSelected.nop data).1
  | enc data => exact (RowSelected.enc data).1
  | dec data => exact (RowSelected.dec data).1
  | rd data => exact (RowSelected.rd data).1
  | wr data => exact (RowSelected.wr data).1
  | goode data => exact (RowSelected.goode data).1
  | goodd data => exact (RowSelected.goodd data).1
  | accept e g sid data => exact (RowSelected.accept e g sid data).1
  | finalize data => exact (RowSelected.finalize data).1
  | rdreg r data => exact (RowSelected.rdreg r data).1

theorem eField_wordOfAccept (op : Byte) (e : Bool) (g sid : Id16) :
    eField (wordOfAccept op e g sid) = e := by
  simp (disch := decide) only [eField, wordOfAccept, getLsbD_append_above, Nat.reduceSub,
    getLsbD_append_lowest]
  cases e <;> rfl

theorem gidField_wordOfAccept (op : Byte) (e : Bool) (g sid : Id16) :
    gidField (wordOfAccept op e g sid) = g := by
  rw [gidField, wordOfAccept, BitVec.extractLsb'_append_eq_of_le (Nat.le_refl 16),
    extractLsb'_append_lowest]

theorem sidField_wordOfAccept (op : Byte) (e : Bool) (g sid : Id16) :
    sidField (wordOfAccept op e g sid) = sid := extractLsb'_append_lowest _ sid

theorem regField_wordOfReg (op : Byte) (r : BitVec 8) : regField (wordOfReg op r) = r :=
  extractLsb'_append_lowest _ r

/-- The operands of a command are those that its word was made from (R96). -/
theorem assemble_word (i : Instr) : assemble i.mnemonic i.word i.data = i := by
  cases i with
  | accept e g sid data =>
    simp only [assemble, Instr.mnemonic, Instr.word, Instr.data, eField_wordOfAccept,
      gidField_wordOfAccept, sidField_wordOfAccept]
  | rdreg r data =>
    simp only [assemble, Instr.mnemonic, Instr.word, Instr.data, regField_wordOfReg]
  | _ => rfl

/-- Settles O1: the word of a command selects its row, and the fields of the word are its operands. -/
theorem decodeOfEncode : Obligations.DecodeOfEncode := by
  intro i fits
  exact (decode_of_selects fits (selects_word i)).trans (congrArg Except.ok (assemble_word i))

/-! ### A word is fixed by its row and its operands -/

/-- Two words agree in every bit that a mask looks at, where they agree under the mask. -/
theorem getLsbD_eq_of_and_eq {n k : Nat} {v w mask : BitVec n} (agree : v &&& mask = w &&& mask)
    (looks : mask.getLsbD k = true) : v.getLsbD k = w.getLsbD k := by
  simpa [looks] using congrArg (BitVec.getLsbD · k) agree

/-- Two words agree in every bit of a field that they share. -/
theorem getLsbD_eq_of_extractLsb'_eq {n start len k : Nat} {v w : BitVec n}
    (same : v.extractLsb' start len = w.extractLsb' start len) (above : start ≤ k)
    (below : k < start + len) : v.getLsbD k = w.getLsbD k := by
  have bit := congrArg (BitVec.getLsbD · (k - start)) same
  simpa [BitVec.getLsbD_extractLsb', Nat.add_sub_cancel' above,
    show k - start < len by omega] using bit

/-- The mask of format A leaves out `E`, `GID` and `SID` alone (R92). -/
theorem accept_mask_looks {k : Nat} (bound : k < 64) (outsideIds : 32 ≤ k) (outsideE : k ≠ 48) :
    Mnemonic.accept.mask.getLsbD k = true := by
  have looks : ∀ j : Fin 64, 32 ≤ j.val → j.val ≠ 48 → Mnemonic.accept.mask.getLsbD j = true := by
    decide
  exact looks ⟨k, bound⟩ outsideIds outsideE

/-- The mask of format R leaves out `REG` alone (R92). -/
theorem rdreg_mask_looks {k : Nat} (bound : k < 64) (outsideReg : 8 ≤ k) :
    Mnemonic.rdreg.mask.getLsbD k = true := by
  have looks : ∀ j : Fin 64, 8 ≤ j.val → Mnemonic.rdreg.mask.getLsbD j = true := by decide
  exact looks ⟨k, bound⟩ outsideReg

/-- What a row's mask leaves out are its operand fields: no bit of a word is dropped (R91, R92). -/
theorem word_eq_of_assemble_eq {row : Mnemonic} {v w : Word64} {data : Bytes}
    (hv : selects v row = true) (hw : selects w row = true)
    (operands : assemble row v data = assemble row w data) : v = w := by
  have agree : v &&& row.mask = w &&& row.mask := (beq_iff_eq.1 hv).trans (beq_iff_eq.1 hw).symm
  cases row with
  | accept =>
    obtain ⟨e, gid, sid, _⟩ := Instr.accept.inj operands
    refine BitVec.eq_of_getLsbD_eq fun k bound => ?_
    by_cases inSid : k < 16
    · exact getLsbD_eq_of_extractLsb'_eq sid (Nat.zero_le k) inSid
    by_cases inGid : k < 32
    · exact getLsbD_eq_of_extractLsb'_eq gid (Nat.not_lt.1 inSid) inGid
    by_cases atE : k = 48
    · subst atE
      exact e
    · exact getLsbD_eq_of_and_eq agree (accept_mask_looks bound (Nat.not_lt.1 inGid) atE)
  | rdreg =>
    obtain ⟨reg, _⟩ := Instr.rdreg.inj operands
    refine BitVec.eq_of_getLsbD_eq fun k bound => ?_
    by_cases inReg : k < 8
    · exact getLsbD_eq_of_extractLsb'_eq reg (Nat.zero_le k) inReg
    · exact getLsbD_eq_of_and_eq agree (rdreg_mask_looks bound (Nat.not_lt.1 inReg))
  | _ =>
    simpa only [Mnemonic.mask, show 0xFFFFFFFFFFFFFFFF#64 = BitVec.allOnes 64 from rfl,
      BitVec.and_allOnes] using agree

/-- The word of what a decoded word stands for is that word. -/
theorem word_assemble {row : Mnemonic} {w : Word64} (data : Bytes) (h : selects w row = true) :
    (assemble row w data).word = w := by
  have own : selects (assemble row w data).word row = true := by
    simpa using selects_word (assemble row w data)
  have operands : assemble row (assemble row w data).word data = assemble row w data := by
    simpa using assemble_word (assemble row w data)
  exact word_eq_of_assemble_eq own h operands

/-- Settles O2: the word of the command read selects the same row with the same operands as the word that
was decoded. -/
theorem encodeOfDecode : Obligations.EncodeOfDecode := by
  rintro ⟨w, data⟩ i decoded
  obtain ⟨_, overlong⟩ | ⟨_, _, illegal⟩ | ⟨fits, row, selected, legal⟩ := decode_cases ⟨w, data⟩
  · cases decoded.symm.trans overlong
  · cases decoded.symm.trans illegal
  · obtain rfl := Except.ok.inj (decoded.symm.trans legal)
    rw [encode, word_assemble data selected, Instr.wellFormed, data_assemble]
    exact ⟨rfl, fits⟩

/-! ### The worked encodings -/

/-- Decoding a word is known once it is known as an encoding. -/
theorem decode_of_encode_eq {i : Instr} {w : Word64} {data : Bytes} (encoded : encode i = ⟨w, data⟩)
    (fits : dataFits data = true) : decode ⟨w, data⟩ = .ok i := by
  have sameData : i.data = data := congrArg Transfer.data encoded
  rw [← encoded]
  exact decodeOfEncode i (by rw [Instr.wellFormed, sameData, fits])

/-- There is no register above 0x0E (R30). -/
theorem regRead_eq_none (b : Block) {r : BitVec 8} (unmapped : 0x0E < r.toNat) :
    regRead b r = none := by
  unfold regRead
  split
  case h_16 => rfl
  all_goals omega

/-- `RDREG` checks the register number before the data (R251, R267). -/
theorem exec_rdreg_unmapped {r : BitVec 8} (unmapped : 0x0E < r.toNat) (data : Bytes) (s : State) :
    exec (.rdreg r data) s = .next (faulted .illegalCommand 0x40#8 s) := by
  show execRdreg r data s = _
  rw [execRdreg, regRead_eq_none s.blk unmapped, raise_eq_faulted]
  rfl

/-- Settles O3: each legal word is found as an encoding, so that O1 decodes it; the two illegal words
select no row. -/
theorem workedEncodings : Obligations.WorkedEncodings := by
  intro data short
  have fits : dataFits data = true := (dataFits_eq_true_iff data).2 short
  have accept : encode (.accept false 2 5 data) = ⟨0x3000000000020005#64, data⟩ := rfl
  have acceptE : encode (.accept true 2 5 data) = ⟨0x3001000000020005#64, data⟩ := rfl
  have rdreg : encode (.rdreg 7 data) = ⟨0x4000000000000007#64, data⟩ := rfl
  have finalize : encode (.finalize data) = ⟨0x3100000000000000#64, data⟩ := rfl
  have unmapped : encode (.rdreg 0x0F data) = ⟨0x400000000000000F#64, data⟩ := rfl
  have reservedInA : ∀ row, selects 0x3002000000020005#64 row = false := by
    intro row; cases row <;> decide
  have reservedInN : ∀ row, selects 0x2000000000000001#64 row = false := by
    intro row; cases row <;> decide
  exact ⟨accept, decode_of_encode_eq accept fits, acceptE, decode_of_encode_eq acceptE fits,
    rdreg, decode_of_encode_eq rdreg fits, finalize, decode_of_encode_eq finalize fits,
    decode_of_no_row fits reservedInA, decode_of_no_row fits reservedInN,
    decode_of_encode_eq unmapped fits, exec_rdreg_unmapped (by decide) data⟩

/-! ### The pseudo-commands -/

/-- Two fields side by side, as a shift and an or. -/
theorem append_eq_shiftLeft_or {v w : Nat} (hi : BitVec v) (lo : BitVec w) :
    hi ++ lo = (hi.setWidth (v + w) <<< w) ||| lo.setWidth (v + w) := by
  rw [BitVec.append_def, BitVec.shiftLeftZeroExtend_eq, BitVec.setWidth'_eq]

/-- A format A word, put together from shifted fields (R92). -/
theorem wordOfAccept_eq_or (g sid : Id16) :
    wordOfAccept Mnemonic.accept.opcode true g sid
      = 0x3001000000000000#64 ||| (g.zeroExtend 64 <<< 16) ||| sid.zeroExtend 64 := by
  calc wordOfAccept Mnemonic.accept.opcode true g sid
    _ = 0x30010000#32 ++ g ++ sid := rfl
    _ = ((0x300100000000#48 ||| g.setWidth 48).setWidth 64 <<< 16) ||| sid.setWidth 64 := by
      rw [append_eq_shiftLeft_or, append_eq_shiftLeft_or]
      rfl
    _ = 0x3001000000000000#64 ||| (g.zeroExtend 64 <<< 16) ||| sid.zeroExtend 64 := by
      simp [BitVec.setWidth_or, BitVec.shiftLeft_or_distrib]

/-- Settles O4: each line stands for its command by definition, and the word of `ERASE` is its
fields shifted into place. -/
theorem pseudoCommandsExpand : Obligations.PseudoCommandsExpand := fun _ g sid =>
  ⟨rfl, congrArg (Transfer.mk · _) (wordOfAccept_eq_or g sid), rfl, rfl, rfl⟩

end Sys2Proof
end

/-! ## The fields -/

section
namespace Sys2Proof.Machine

open Polynomial

variable {m : Nat}

/-! ### Elements and residues correspond one to one -/

theorem coeff_asPolynomial (a : BitVec m) (i : Nat) :
    (asPolynomial a).coeff i = if a.getLsbD i then 1 else 0 := by
  have term : ∀ k, (if a.getLsbD k then (X : (ZMod 2)[X]) ^ k else 0).coeff i
      = if i = k then (if a.getLsbD i then 1 else 0) else 0 := by
    intro k
    by_cases h : i = k
    · subst h; split <;> simp
    · split <;> simp [coeff_X_pow, h]
  rw [asPolynomial, finsetSum_coeff, Finset.sum_congr rfl fun k _ => term k, Finset.sum_ite_eq]
  split
  · rfl
  · rename_i outside
    rw [BitVec.getLsbD_of_ge a i (by simpa using outside)]
    rfl

theorem asPolynomial_injective : Function.Injective (asPolynomial (m := m)) := by
  intro a b h
  refine BitVec.eq_of_getLsbD_eq fun i _ => ?_
  have bit := congrArg (fun p => p.coeff i) h
  simp only [coeff_asPolynomial] at bit
  cases ha : a.getLsbD i <;> cases hb : b.getLsbD i <;> simp [ha, hb] at bit ⊢

theorem degree_asPolynomial_lt (a : BitVec m) : (asPolynomial a).degree < m := by
  refine (degree_lt_iff_coeff_zero _ _).2 fun i hi => ?_
  rw [coeff_asPolynomial, BitVec.getLsbD_of_ge a i hi]
  rfl

theorem GF.degree_modulus (F : GF m) : F.modulus.degree = m :=
  (degree_add_eq_left_of_degree_lt (by rw [degree_X_pow]; exact degree_asPolynomial_lt F.red)).trans
    (degree_X_pow m)

/-- Elements have fewer coefficients than the field polynomial, so each is its own remainder. -/
theorem GF.residue_injective (F : GF m) : Function.Injective F.residue := by
  intro a b h
  have divides : F.modulus ∣ asPolynomial a - asPolynomial b := AdjoinRoot.mk_eq_mk.1 h
  refine asPolynomial_injective (sub_eq_zero.1 (eq_zero_of_dvd_of_degree_lt divides ?_))
  rw [F.degree_modulus]
  exact (degree_sub_le _ _).trans_lt
    (max_lt (degree_asPolynomial_lt a) (degree_asPolynomial_lt b))

theorem asPolynomial_one (wide : 0 < m) : asPolynomial (BitVec.ofNat m 1) = 1 := by
  ext i
  rw [coeff_asPolynomial, coeff_one]
  by_cases h : i = 0 <;> simp [h, wide]

@[simp] theorem GF.residue_genPow (F : GF m) (wide : 0 < m) (n : Nat) :
    F.residue (F.genPow n) = AdjoinRoot.root F.modulus ^ n := by
  induction n with
  | zero => rw [GF.genPow, GF.residue, asPolynomial_one wide, map_one, pow_zero]
  | succ n ih => rw [GF.genPow, residue_xtime, ih, pow_succ']

theorem GF.residue_one (F : GF m) (wide : 0 < m) : F.residue (BitVec.ofNat m 1) = 1 :=
  F.residue_genPow wide 0

/-- Every residue is a sum of powers of the root, and those are residues of elements. -/
theorem GF.residue_surjective (F : GF m) (wide : 0 < m) : Function.Surjective F.residue := by
  intro x
  obtain ⟨p, rfl⟩ := AdjoinRoot.mk_surjective x
  induction p using Polynomial.induction_on' with
  | add p q hp hq =>
    obtain ⟨a, ha⟩ := hp
    obtain ⟨b, hb⟩ := hq
    exact ⟨a ^^^ b, by rw [residue_xor, ha, hb, map_add]⟩
  | monomial n c =>
    obtain rfl | rfl := (by decide : ∀ c : ZMod 2, c = 0 ∨ c = 1) c
    · exact ⟨0#m, by simp⟩
    · exact ⟨F.genPow n, by
        rw [F.residue_genPow wide, ← X_pow_eq_monomial, map_pow, AdjoinRoot.mk_X]⟩

/-! ### The powers of the element 2 -/

/-- The field polynomial is primitive: z has the greatest order that it can have (R121, R140). -/
def GF.Primitive (F : GF m) : Prop := orderOf (AdjoinRoot.root F.modulus) = 2 ^ m - 1

/-- Powers of 2 repeat only with the order of z. -/
theorem GF.genPow_eq_iff (F : GF m) (prim : F.Primitive) (wide : 0 < m) (i j : Nat) :
    F.genPow i = F.genPow j ↔ i ≡ j [MOD 2 ^ m - 1] := by
  have finite : IsOfFinOrder (AdjoinRoot.root F.modulus) := by
    rw [← orderOf_pos_iff, prim]
    exact Nat.sub_pos_of_lt (Nat.one_lt_two_pow wide.ne')
  rw [← F.residue_injective.eq_iff, F.residue_genPow wide, F.residue_genPow wide, ← prim]
  exact finite.pow_eq_pow_iff_modEq

theorem GF.genPow_ne_zero (F : GF m) (prim : F.Primitive) (wide : 2 ≤ m) (n : Nat) :
    F.genPow n ≠ 0#m := by
  intro zero
  have next : F.genPow (n + 1) = 0#m := by
    refine F.residue_injective ?_
    rw [GF.genPow, residue_xtime, zero, residue_zero, mul_zero]
  have divides : 2 ^ m - 1 ∣ n + 1 - n :=
    (Nat.modEq_iff_dvd' n.le_succ).1
      ((F.genPow_eq_iff prim (by omega) n (n + 1)).1 (zero.trans next.symm))
  have big : 2 ^ 2 ≤ 2 ^ m := Nat.pow_le_pow_right (by decide) wide
  have := Nat.le_of_dvd (by omega) divides
  omega

/-- There are as many powers of 2 as elements other than 0. -/
theorem GF.exists_genPow (F : GF m) (prim : F.Primitive) (wide : 2 ≤ m) {a : BitVec m}
    (nonzero : a ≠ 0#m) : ∃ n, n < 2 ^ m - 1 ∧ F.genPow n = a := by
  have powers : (Finset.range (2 ^ m - 1)).image F.genPow = Finset.univ.erase 0#m := by
    refine Finset.eq_of_subset_of_card_le (fun x hx => ?_) ?_
    · obtain ⟨n, -, rfl⟩ := Finset.mem_image.1 hx
      exact Finset.mem_erase.2 ⟨F.genPow_ne_zero prim wide n, Finset.mem_univ _⟩
    · rw [Finset.card_erase_of_mem (Finset.mem_univ _), Finset.card_univ,
        ← FinEnum.card_eq_fintypeCard, Finset.card_image_of_injOn, Finset.card_range]
      · rfl
      · intro i hi j hj h
        simp only [Finset.coe_range, Set.mem_Iio] at hi hj
        exact ((F.genPow_eq_iff prim (by omega) i j).1 h).eq_of_lt_of_lt hi hj
  simpa using powers.ge (Finset.mem_erase.2 ⟨nonzero, Finset.mem_univ a⟩)

theorem GF.residue_prodSquares (F : GF m) (wide : 0 < m) (a : BitVec m) (k : Nat) :
    F.residue (F.prodSquares a k) = F.residue a ^ (2 ^ (k + 1) - 2) := by
  induction k generalizing a with
  | zero => exact F.residue_one wide
  | succ k ih =>
    have : 2 ≤ 2 ^ (k + 1) := Nat.le_self_pow (by omega) 2
    rw [GF.prodSquares, residue_mul, ih, residue_mul, ← pow_two, ← pow_mul, ← pow_add]
    congr 1
    rw [pow_succ]
    omega

/-- The inverse as the product of squares that the model takes (R121). -/
theorem GF.residue_inv (F : GF m) (wide : 0 < m) (a : BitVec m) :
    F.residue (F.inv a) = F.residue a ^ (2 ^ m - 2) := by
  rw [GF.inv, F.residue_prodSquares wide, Nat.sub_add_cancel wide]

/-- Fermat's theorem in these fields: a power of 2, raised to the order of 2. -/
theorem GF.mul_inv_cancel (F : GF m) (prim : F.Primitive) (wide : 2 ≤ m) {a : BitVec m}
    (nonzero : a ≠ 0#m) : F.mul a (F.inv a) = BitVec.ofNat m 1 := by
  obtain ⟨n, -, rfl⟩ := F.exists_genPow prim wide nonzero
  have big : 2 ^ 2 ≤ 2 ^ m := Nat.pow_le_pow_right (by decide) wide
  refine F.residue_injective ?_
  rw [residue_mul, F.residue_inv (by omega), ← pow_succ', F.residue_genPow (by omega),
    F.residue_one (by omega), show 2 ^ m - 2 + 1 = 2 ^ m - 1 by omega, pow_right_comm, ← prim,
    pow_orderOf_eq_one, one_pow]

theorem GF.genPow_one (F : GF m) (wide : 2 ≤ m) : F.genPow 1 = GF.gen := by
  have low : (BitVec.ofNat m 1).msb = false := by
    rw [BitVec.msb_eq_false_iff_two_mul_lt, BitVec.toNat_ofNat]
    have big : 2 ^ 2 ≤ 2 ^ m := Nat.pow_le_pow_right (by decide) wide
    rw [Nat.mod_eq_of_lt] <;> omega
  rw [GF.genPow, GF.genPow, GF.xtime, low, if_neg (by decide), GF.gen]
  exact BitVec.eq_of_toNat_eq (by simp [Nat.shiftLeft_eq])

theorem GF.residue_gen (F : GF m) (wide : 2 ≤ m) :
    F.residue GF.gen = AdjoinRoot.root F.modulus := by
  rw [← F.genPow_one wide, F.residue_genPow (by omega), pow_one]

/-- What makes a field polynomial primitive: z to the order of the group is 1, and z to a proper divisor
of that order is not. -/
theorem GF.primitive_of_genPow (F : GF m) (wide : 2 ≤ m)
    (whole : F.mul GF.gen (F.inv GF.gen) = BitVec.ofNat m 1)
    (parts : ∀ p : Nat, p.Prime → p ∣ 2 ^ m - 1 → F.genPow ((2 ^ m - 1) / p) ≠ F.genPow 0) :
    F.Primitive := by
  have big : 2 ^ 2 ≤ 2 ^ m := Nat.pow_le_pow_right (by decide) wide
  refine orderOf_eq_of_pow_and_pow_div_prime (by omega) ?_ fun p prime divides one => ?_
  · have := congrArg F.residue whole
    rwa [residue_mul, F.residue_inv (by omega), ← pow_succ', F.residue_one (by omega),
      F.residue_gen wide, show 2 ^ m - 2 + 1 = 2 ^ m - 1 by omega] at this
  · refine parts p prime divides (F.residue_injective ?_)
    rw [F.residue_genPow (by omega), one, F.residue_genPow (by omega), pow_zero]

/-- 255 = 3 · 5 · 17 (R121). -/
theorem primitive_gf256 : gf256.Primitive := by
  refine gf256.primitive_of_genPow (by decide) (by decide +kernel) fun p prime divides => ?_
  have factor : p = 3 ∨ p = 5 ∨ p = 17 := by
    have split : p ∣ 3 * (5 * 17) := divides
    simpa only [prime.dvd_mul, Nat.prime_dvd_prime_iff_eq prime, Nat.prime_three, Nat.prime_five,
      (by norm_num : Nat.Prime 17)] using split
  obtain rfl | rfl | rfl := factor <;> decide +kernel

/-- 2047 = 23 · 89 (R140). -/
theorem primitive_gf2048 : gf2048.Primitive := by
  refine gf2048.primitive_of_genPow (by decide) (by decide +kernel) fun p prime divides => ?_
  have factor : p = 23 ∨ p = 89 := by
    have split : p ∣ 23 * 89 := divides
    simpa only [prime.dvd_mul, Nat.prime_dvd_prime_iff_eq prime, (by norm_num : Nat.Prime 23),
      (by norm_num : Nat.Prime 89)] using split
  obtain rfl | rfl := factor <;> decide +kernel

/-- The laws of R122 in a field with a primitive polynomial. -/
theorem GF.laws (F : GF m) (prim : F.Primitive) (wide : 2 ≤ m) :
    (∀ a b c : BitVec m,
      a ^^^ a = 0#m
      ∧ F.mul a b = F.mul b a
      ∧ F.mul (F.mul a b) c = F.mul a (F.mul b c)
      ∧ F.mul a (b ^^^ c) = F.mul a b ^^^ F.mul a c
      ∧ F.mul 0#m a = 0#m ∧ F.mul (BitVec.ofNat m 1) a = a
      ∧ (a ≠ 0#m → F.mul a (F.inv a) = BitVec.ofNat m 1 ∧ ∃ n, n < 2 ^ m - 1 ∧ F.genPow n = a))
    ∧ (∀ i j : Nat, F.mul (F.genPow i) (F.genPow j) = F.genPow ((i + j) % (2 ^ m - 1)))
    ∧ ∀ i j : Nat, i < 2 ^ m - 1 → j < 2 ^ m - 1 → F.genPow i = F.genPow j → i = j := by
  have pos : 0 < m := by omega
  refine ⟨fun a b c => ⟨BitVec.xor_self, ?_, ?_, ?_, ?_, ?_, fun nonzero =>
    ⟨F.mul_inv_cancel prim wide nonzero, F.exists_genPow prim wide nonzero⟩⟩, fun i j => ?_,
    fun i j hi hj h => ((F.genPow_eq_iff prim pos i j).1 h).eq_of_lt_of_lt hi hj⟩
  · exact F.residue_injective (by rw [residue_mul, residue_mul, mul_comm])
  · exact F.residue_injective (by simp only [residue_mul, mul_assoc])
  · exact F.residue_injective (by simp only [residue_mul, residue_xor, mul_add])
  · exact F.residue_injective (by rw [residue_mul, residue_zero, zero_mul])
  · exact F.residue_injective (by rw [residue_mul, F.residue_one pos, one_mul])
  · have sum : F.mul (F.genPow i) (F.genPow j) = F.genPow (i + j) :=
      F.residue_injective (by simp only [residue_mul, F.residue_genPow pos, pow_add])
    rw [sum, F.genPow_eq_iff prim pos]
    exact (Nat.mod_modEq _ _).symm

/-- Settles O45: both field polynomials are primitive. -/
theorem fieldLaws : Obligations.FieldLaws :=
  ⟨gf256.laws primitive_gf256 (by decide), gf2048.laws primitive_gf2048 (by decide)⟩

/-! ### A field in which the elements compute -/

/-- An injection of the elements into a field that keeps sums, products, 1, inverses and the order of the
element 2. What the codec computes with elements is then read off in the field. -/
structure GF.Embedding (F : GF m) (K : Type) [Field K] where
  val : BitVec m → K
  injective : Function.Injective val
  map_xor : ∀ a b, val (a ^^^ b) = val a + val b
  map_mul : ∀ a b, val (F.mul a b) = val a * val b
  map_one : val (BitVec.ofNat m 1) = 1
  map_inv : ∀ a, a ≠ 0#m → val (F.inv a) = (val a)⁻¹
  map_genPow : ∀ n, val (F.genPow n) = val GF.gen ^ n
  orderOf_gen : orderOf (val GF.gen) = 2 ^ m - 1

theorem GF.isField_adjoinRoot (F : GF m) (prim : F.Primitive) (wide : 2 ≤ m) :
    IsField (AdjoinRoot F.modulus) where
  exists_pair_ne := ⟨F.residue (F.genPow 0), F.residue 0#m,
    F.residue_injective.ne (F.genPow_ne_zero prim wide 0)⟩
  mul_comm := mul_comm
  mul_inv_cancel := by
    intro x nonzero
    obtain ⟨a, rfl⟩ := F.residue_surjective (by omega) x
    have ha : a ≠ 0#m := fun zero => nonzero (by rw [zero, residue_zero])
    exact ⟨F.residue (F.inv a), by
      rw [← residue_mul, F.mul_inv_cancel prim wide ha, F.residue_one (by omega)]⟩

/-- The residues are such a field (R121, R140). -/
theorem GF.exists_embedding (F : GF m) (prim : F.Primitive) (wide : 2 ≤ m) :
    ∃ (K : Type) (_ : Field K) (_ : CharP K 2), Nonempty (F.Embedding K) := by
  let field := (F.isField_adjoinRoot prim wide).toField
  have one : F.residue (BitVec.ofNat m 1) = (1 : AdjoinRoot F.modulus) := F.residue_one (by omega)
  refine ⟨AdjoinRoot F.modulus, field, ?_, ⟨F.residue, F.residue_injective, F.residue_xor,
    F.residue_mul, one, fun a nonzero => ?_, fun n => ?_, ?_⟩⟩
  · refine CharTwo.of_one_ne_zero_of_two_eq_zero one_ne_zero ?_
    have := (F.residue_xor (BitVec.ofNat m 1) (BitVec.ofNat m 1)).symm
    rw [BitVec.xor_self, residue_zero, one] at this
    exact one_add_one_eq_two.symm.trans this
  · refine eq_inv_of_mul_eq_one_right ?_
    exact (F.residue_mul _ _).symm.trans
      ((congrArg F.residue (F.mul_inv_cancel prim wide nonzero)).trans one)
  · rw [F.residue_gen wide]
    exact F.residue_genPow (by omega) n
  · rw [F.residue_gen wide]
    exact prim

end Sys2Proof.Machine
end

/-! ## Words and coefficient lists as polynomials -/

section
namespace Sys2Proof.Machine

open Polynomial

variable {m : Nat} {F : GF m} {K : Type} [Field K] (φ : F.Embedding K)

/-! ### Lists with the index as the power of x -/

@[simp] theorem GF.Embedding.map_zero : φ.val 0#m = 0 := by
  have h := φ.map_xor 0#m 0#m
  rwa [BitVec.xor_self, left_eq_add] at h

theorem GF.Embedding.val_eq_zero_iff {a : BitVec m} : φ.val a = 0 ↔ a = 0#m :=
  ⟨fun h => φ.injective (h.trans φ.map_zero.symm), fun h => by rw [h, φ.map_zero]⟩

/-- The polynomial of a coefficient list, index = power of x. -/
noncomputable def GF.Embedding.poly (p : List (BitVec m)) : K[X] :=
  p.foldr (fun a rest => C (φ.val a) + X * rest) 0

@[simp] theorem GF.Embedding.poly_nil : φ.poly [] = 0 := rfl

@[simp] theorem GF.Embedding.poly_cons (a : BitVec m) (p : List (BitVec m)) :
    φ.poly (a :: p) = C (φ.val a) + X * φ.poly p := rfl

theorem GF.Embedding.coeff_poly (p : List (BitVec m)) (i : Nat) :
    (φ.poly p).coeff i = φ.val (p.getD i 0#m) := by
  induction p generalizing i with
  | nil => simp
  | cons a p ih => cases i <;> simp [coeff_C_succ, ih]

theorem GF.Embedding.poly_append (p q : List (BitVec m)) :
    φ.poly (p ++ q) = φ.poly p + X ^ p.length * φ.poly q := by
  induction p with
  | nil => simp
  | cons a p ih =>
    simp only [List.cons_append, poly_cons, ih, List.length_cons]
    ring

@[simp] theorem GF.Embedding.poly_replicate_zero (k : Nat) : φ.poly (List.replicate k 0#m) = 0 := by
  induction k with
  | zero => rfl
  | succ k ih => simp [List.replicate_succ, ih]

theorem GF.Embedding.degree_poly_lt (p : List (BitVec m)) : (φ.poly p).degree < p.length := by
  refine (degree_lt_iff_coeff_zero _ _).2 fun i hi => ?_
  rw [coeff_poly, List.getD_eq_default _ _ hi, map_zero]

@[simp] theorem GF.Embedding.poly_polyAdd (p q : List (BitVec m)) :
    φ.poly (polyAdd p q) = φ.poly p + φ.poly q := by
  induction p generalizing q with
  | nil => cases q <;> simp [polyAdd]
  | cons a p ih =>
    cases q with
    | nil => simp [polyAdd]
    | cons b q =>
      simp only [polyAdd, poly_cons, φ.map_xor, ih, C_add]
      ring

@[simp] theorem GF.Embedding.poly_polyShift (k : Nat) (p : List (BitVec m)) :
    φ.poly (polyShift k p) = X ^ k * φ.poly p := by
  simp [polyShift, poly_append]

@[simp] theorem GF.Embedding.poly_scale (c : BitVec m) (p : List (BitVec m)) :
    φ.poly (F.scale c p) = C (φ.val c) * φ.poly p := by
  induction p with
  | nil => simp [GF.scale]
  | cons a p ih =>
    rw [GF.scale, List.map_cons, poly_cons, ← GF.scale, ih, φ.map_mul, C_mul, poly_cons]
    ring

@[simp] theorem GF.Embedding.poly_polyMul (p q : List (BitVec m)) :
    φ.poly (F.polyMul p q) = φ.poly p * φ.poly q := by
  induction p with
  | nil => simp [GF.polyMul]
  | cons a p ih =>
    simp only [GF.polyMul, poly_polyAdd, poly_scale, poly_cons, ih, map_zero, C_0, zero_add]
    ring

theorem GF.Embedding.val_polyEval (p : List (BitVec m)) (x : BitVec m) :
    φ.val (F.polyEval p x) = (φ.poly p).eval (φ.val x) := by
  induction p with
  | nil => simp [GF.polyEval]
  | cons a p ih =>
    rw [GF.polyEval, List.foldr_cons, ← GF.polyEval, φ.map_xor, φ.map_mul, ih]
    simp

/-! ### Words, the highest power first -/

/-- The polynomial of a word: its first symbol is the coefficient of the highest power (R125, R145). -/
noncomputable def GF.Embedding.wordPoly (w : List (BitVec m)) : K[X] := φ.poly w.reverse

@[simp] theorem GF.Embedding.wordPoly_nil : φ.wordPoly [] = 0 := rfl

@[simp] theorem GF.Embedding.wordPoly_cons (a : BitVec m) (w : List (BitVec m)) :
    φ.wordPoly (a :: w) = C (φ.val a) * X ^ w.length + φ.wordPoly w := by
  simp only [wordPoly, List.reverse_cons, poly_append, poly_cons, poly_nil, List.length_reverse]
  ring

theorem GF.Embedding.wordPoly_append (u v : List (BitVec m)) :
    φ.wordPoly (u ++ v) = φ.wordPoly u * X ^ v.length + φ.wordPoly v := by
  rw [wordPoly, List.reverse_append, poly_append, List.length_reverse, wordPoly, wordPoly]
  ring

@[simp] theorem GF.Embedding.wordPoly_replicate_zero (k : Nat) :
    φ.wordPoly (List.replicate k 0#m) = 0 := by
  simp [wordPoly]

theorem GF.Embedding.degree_wordPoly_lt (w : List (BitVec m)) : (φ.wordPoly w).degree < w.length := by
  simpa [wordPoly] using φ.degree_poly_lt w.reverse

@[simp] theorem GF.Embedding.wordPoly_scale (c : BitVec m) (w : List (BitVec m)) :
    φ.wordPoly (F.scale c w) = C (φ.val c) * φ.wordPoly w := by
  rw [wordPoly, GF.scale, ← List.map_reverse, ← GF.scale, poly_scale, wordPoly]

/-- A sum aligned at the highest power, the shorter word first. -/
theorem GF.Embedding.wordPoly_polyAdd {u v : List (BitVec m)} (short : u.length ≤ v.length) :
    φ.wordPoly (polyAdd u v) = φ.wordPoly u * X ^ (v.length - u.length) + φ.wordPoly v := by
  induction u generalizing v with
  | nil => cases v <;> simp [polyAdd]
  | cons a u ih =>
    cases v with
    | nil => simp at short
    | cons b v =>
      have short : u.length ≤ v.length := by simpa using short
      have whole : X ^ v.length = X ^ u.length * (X : K[X]) ^ (v.length - u.length) := by
        rw [← pow_add, Nat.add_sub_of_le short]
      simp only [polyAdd, wordPoly_cons, φ.map_xor, C_add, length_polyAdd, max_eq_right short, ih short,
        List.length_cons, Nat.add_sub_add_right, whole]
      ring

theorem GF.Embedding.val_wordEval (w : List (BitVec m)) (x : BitVec m) :
    φ.val (F.wordEval w x) = (φ.wordPoly w).eval (φ.val x) := by
  have key : ∀ acc, φ.val (w.foldl (fun acc c => F.mul acc x ^^^ c) acc)
      = φ.val acc * φ.val x ^ w.length + (φ.wordPoly w).eval (φ.val x) := by
    induction w with
    | nil => simp
    | cons a w ih =>
      intro acc
      rw [List.foldl_cons, ih, φ.map_xor, φ.map_mul, wordPoly_cons, List.length_cons]
      simp only [eval_add, eval_mul, eval_C, eval_pow, eval_X]
      ring
  simpa [GF.wordEval] using key 0#m

/-- Words of one length are told apart by their polynomials. -/
theorem GF.Embedding.wordPoly_inj {u v : List (BitVec m)} (length : u.length = v.length)
    (h : φ.wordPoly u = φ.wordPoly v) : u = v := by
  refine List.reverse_injective (List.ext_getElem (by simpa using length) fun i hi hj => ?_)
  have coeff := congrArg (fun p => p.coeff i) h
  simp only [wordPoly, coeff_poly] at coeff
  have symbol := φ.injective coeff
  rwa [List.getD_eq_getElem _ _ hi, List.getD_eq_getElem _ _ hj] at symbol

/-! ### The distance of two words -/

theorem symbolDistance_cons {α : Type} [DecidableEq α] (a b : α) (u v : List α) :
    symbolDistance (a :: u) (b :: v) = symbolDistance u v + if a = b then 0 else 1 := by
  by_cases h : a = b <;> simp [symbolDistance, h]

theorem card_support_C_mul_X_pow_add {c : K} (nonzero : c ≠ 0) {n : Nat} {p : K[X]}
    (low : p.degree < n) : (C c * X ^ n + p).support.card = p.support.card + 1 := by
  have zero := coeff_eq_zero_of_degree_lt low
  have terms : (C c * X ^ n + p).support = insert n p.support := by
    ext i
    by_cases h : i = n
    · simp [h, zero, nonzero]
    · simp [h, coeff_X_pow]
  rw [terms, Finset.card_insert_of_notMem (by simpa using zero)]

theorem GF.Embedding.degree_wordPoly_sub_lt {u v : List (BitVec m)} {n : Nat} (hu : u.length = n)
    (hv : v.length = n) : (φ.wordPoly u - φ.wordPoly v).degree < n :=
  (degree_sub_le _ _).trans_lt
    (max_lt (hu ▸ φ.degree_wordPoly_lt u) (hv ▸ φ.degree_wordPoly_lt v))

/-- The number of positions where two words of one length differ is the number of terms of the
difference of their polynomials. -/
theorem GF.Embedding.symbolDistance_eq_card {u v : List (BitVec m)} (length : u.length = v.length) :
    symbolDistance u v = (φ.wordPoly u - φ.wordPoly v).support.card := by
  induction u generalizing v with
  | nil =>
    obtain rfl := List.length_eq_zero_iff.1 length.symm
    simp [symbolDistance]
  | cons a u ih =>
    cases v with
    | nil => simp at length
    | cons b v =>
      have length : u.length = v.length := by simpa using length
      have low := φ.degree_wordPoly_sub_lt length rfl
      have difference : φ.wordPoly (a :: u) - φ.wordPoly (b :: v)
          = C (φ.val a - φ.val b) * X ^ v.length + (φ.wordPoly u - φ.wordPoly v) := by
        rw [wordPoly_cons, wordPoly_cons, length, C_sub]
        ring
      rw [symbolDistance_cons, ih length, difference]
      split
      · rename_i same
        rw [same, sub_self, C_0, zero_mul, zero_add, Nat.add_zero]
      · rename_i different
        exact (card_support_C_mul_X_pow_add (sub_ne_zero.2 (φ.injective.ne different)) low).symm

theorem symbolDistance_self {α : Type} [DecidableEq α] (u : List α) : symbolDistance u u = 0 := by
  induction u with
  | nil => rfl
  | cons a u ih => rw [symbolDistance_cons, ih, if_pos rfl]

/-- The triangle inequality, for words of one length. -/
theorem symbolDistance_triangle {α : Type} [DecidableEq α] {u v w : List α}
    (hu : u.length = w.length) (hv : v.length = w.length) :
    symbolDistance u v ≤ symbolDistance u w + symbolDistance v w := by
  induction w generalizing u v with
  | nil =>
    obtain rfl := List.length_eq_zero_iff.1 hu
    simp [symbolDistance]
  | cons c w ih =>
    obtain ⟨a, u, rfl⟩ := List.exists_cons_of_length_eq_add_one hu
    obtain ⟨b, v, rfl⟩ := List.exists_cons_of_length_eq_add_one hv
    have rest := ih (Nat.succ.inj hu) (Nat.succ.inj hv)
    simp only [symbolDistance_cons]
    by_cases h : a = b
    · rw [if_pos h]
      omega
    · have apart : ¬ (a = c ∧ b = c) := fun ⟨ha, hb⟩ => h (ha.trans hb.symm)
      obtain ha | hb := not_and_or.1 apart
      · rw [if_neg h, if_neg ha]
        omega
      · rw [if_neg h, if_neg hb]
        omega

/-! ### The code, by its roots -/

theorem GF.Embedding.map_wordEval_genPow (w : List (BitVec m)) (j : Nat) :
    φ.val (F.wordEval w (F.genPow j)) = (φ.wordPoly w).eval (φ.val GF.gen ^ j) := by
  rw [φ.val_wordEval, φ.map_genPow]

/-- The values of x · g^i in the order in which the model lists them. -/
theorem GF.Embedding.map_powersFrom (g x : BitVec m) (n : Nat) :
    (F.powersFrom g x n).map φ.val = (List.range n).map fun i => φ.val x * φ.val g ^ i := by
  induction n generalizing x with
  | zero => rfl
  | succ n ih =>
    rw [GF.powersFrom, List.map_cons, ih, List.range_succ_eq_map, List.map_cons, List.map_map,
      pow_zero, mul_one]
    refine congrArg _ (List.map_congr_left fun i _ => ?_)
    rw [φ.map_mul, Function.comp_apply, pow_succ]
    ring

include φ in
/-- γ^1, .., γ^N as powers of 2 (R131). -/
theorem GF.Embedding.powersFrom_gen (n : Nat) :
    F.powersFrom GF.gen GF.gen n = (List.range n).map fun i => F.genPow (i + 1) := by
  refine List.map_injective_iff.2 φ.injective ?_
  rw [φ.map_powersFrom, List.map_map]
  refine List.map_congr_left fun i _ => ?_
  rw [Function.comp_apply, φ.map_genPow, pow_succ']

/-- The syndromes in the order in which the model lists them (R131). -/
theorem BlockCode.syndromes_eq (code : BlockCode m) (φ : code.field.Embedding K)
    (w : List (BitVec m)) : code.syndromes w = (List.range code.roots).map fun i =>
      code.field.wordEval w (code.field.genPow (i + 1)) := by
  rw [BlockCode.syndromes, φ.powersFrom_gen, List.map_map]
  rfl

/-- The polynomial is zero at γ^1, .., γ^N (R125, R145). -/
def VanishesOnPowers (γ : K) (N : Nat) (p : K[X]) : Prop := ∀ j, 1 ≤ j → j ≤ N → p.eval (γ ^ j) = 0

theorem VanishesOnPowers.sub {γ : K} {N : Nat} {p q : K[X]} (hp : VanishesOnPowers γ N p)
    (hq : VanishesOnPowers γ N q) : VanishesOnPowers γ N (p - q) := fun j one le => by
  rw [eval_sub, hp j one le, hq j one le, sub_zero]

/-- The symbols of a word that may stand for bits (R140). -/
def BlockCode.Alphabet (code : BlockCode m) (w : List (BitVec m)) : Prop :=
  code.binary = true → ∀ x ∈ w, x = 0#m ∨ x = BitVec.ofNat m 1

theorem BlockCode.has_iff (code : BlockCode m) (φ : code.field.Embedding K) (w : List (BitVec m)) :
    code.Has w ↔ w.length = code.n ∧ code.Alphabet w
      ∧ VanishesOnPowers (φ.val GF.gen) code.roots (φ.wordPoly w) := by
  simp only [BlockCode.Has, BlockCode.Alphabet, VanishesOnPowers, ← φ.map_wordEval_genPow,
    φ.val_eq_zero_iff]

/-- The test of the decoder (R131, R135). -/
theorem BlockCode.allZero_syndromes_iff (code : BlockCode m) (φ : code.field.Embedding K)
    (w : List (BitVec m)) : allZero (code.syndromes w) = true
      ↔ VanishesOnPowers (φ.val GF.gen) code.roots (φ.wordPoly w) := by
  simp only [allZero, code.syndromes_eq φ, List.all_map, List.all_eq_true, List.mem_range,
    Function.comp_apply, beq_iff_eq, VanishesOnPowers, ← φ.map_wordEval_genPow, φ.val_eq_zero_iff]
  constructor
  · intro h j one le
    obtain ⟨i, rfl⟩ := Nat.exists_eq_add_of_le' one
    exact h i le
  · exact fun h i lt => h (i + 1) (Nat.le_add_left 1 i) lt

/-! ### Polynomials with few terms -/

/-- The values of f at the locators γ^l of the terms of e, weighted by the terms, are the syndromes of e
weighted by the coefficients of f. -/
theorem sum_coeff_mul_eval_comm (e f : K[X]) (γ : K) {n : Nat} (short : f.natDegree < n) :
    ∑ l ∈ e.support, e.coeff l * f.eval (γ ^ l) = ∑ j ∈ Finset.range n, f.coeff j * e.eval (γ ^ j) := by
  simp only [eval_eq_sum_range' short, Finset.mul_sum, eval_eq_sum, sum_def]
  rw [Finset.sum_comm]
  refine Finset.sum_congr rfl fun j _ => Finset.sum_congr rfl fun l _ => ?_
  rw [← pow_mul, ← pow_mul, mul_comm l]
  ring

/-- The polynomial with the roots 0 and γ^l for these l. -/
noncomputable def locatorPoly (γ : K) (s : Finset Nat) : K[X] := X * ∏ l ∈ s, (X - C (γ ^ l))

theorem natDegree_locatorPoly (γ : K) (s : Finset Nat) :
    (locatorPoly γ s).natDegree = s.card + 1 := by
  rw [locatorPoly, natDegree_X_mul (Finset.prod_ne_zero_iff.2 fun l _ => X_sub_C_ne_zero _),
    natDegree_finsetProd_X_sub_C_eq_card]

theorem eval_locatorPoly (γ x : K) (s : Finset Nat) :
    (locatorPoly γ s).eval x = x * ∏ l ∈ s, (x - γ ^ l) := by
  simp [locatorPoly, eval_prod]

/-- The BCH bound: a polynomial that vanishes at γ^1, .., γ^N and has at most N terms is zero (R129). -/
theorem VanishesOnPowers.eq_zero_of_card_support_le {γ : K} {N : Nat} {e : K[X]}
    (zero : VanishesOnPowers γ N e) (few : e.support.card ≤ N) (nonzero : γ ≠ 0)
    (apart : Set.InjOn (fun l => γ ^ l) (e.support : Set Nat)) : e = 0 := by
  by_contra some_term
  obtain ⟨k, hk⟩ := support_nonempty.2 some_term
  have short : (locatorPoly γ (e.support.erase k)).natDegree < N + 1 := by
    have : 0 < e.support.card := Finset.card_pos.2 ⟨k, hk⟩
    rw [natDegree_locatorPoly, Finset.card_erase_of_mem hk]
    omega
  have right : ∑ j ∈ Finset.range (N + 1),
      (locatorPoly γ (e.support.erase k)).coeff j * e.eval (γ ^ j) = 0 := by
    refine Finset.sum_eq_zero fun j hj => ?_
    obtain rfl | one := Nat.eq_zero_or_pos j
    · rw [locatorPoly, mul_coeff_zero, coeff_X_zero, zero_mul, zero_mul]
    · rw [zero j one (Nat.lt_succ_iff.1 (Finset.mem_range.1 hj)), mul_zero]
  have left : ∑ l ∈ e.support, e.coeff l * (locatorPoly γ (e.support.erase k)).eval (γ ^ l)
      = e.coeff k * (locatorPoly γ (e.support.erase k)).eval (γ ^ k) := by
    refine Finset.sum_eq_single_of_mem k hk fun l hl other => ?_
    rw [eval_locatorPoly, Finset.prod_eq_zero (Finset.mem_erase.2 ⟨other, hl⟩) (sub_self _), mul_zero,
      mul_zero]
  have value : (locatorPoly γ (e.support.erase k)).eval (γ ^ k) ≠ 0 := by
    rw [eval_locatorPoly]
    refine mul_ne_zero (pow_ne_zero k nonzero) (Finset.prod_ne_zero_iff.2 fun l hl => ?_)
    obtain ⟨other, hl⟩ := Finset.mem_erase.1 hl
    exact sub_ne_zero.2 (apart.ne hk hl other.symm)
  rw [sum_coeff_mul_eval_comm e _ γ short, right] at left
  exact mul_ne_zero (mem_support_iff.1 hk) value left.symm

/-! ### The minimum distance -/

theorem GF.Embedding.gen_ne_zero : φ.val GF.gen ≠ 0 := by
  intro zero
  have order := φ.orderOf_gen
  rw [zero, orderOf_zero] at order
  have narrow : m = 0 := by
    by_contra wide
    have := Nat.one_lt_two_pow wide
    omega
  subst narrow
  exact one_ne_zero (φ.map_one.symm.trans ((congrArg φ.val (Subsingleton.elim _ _)).trans φ.map_zero))

/-- The locators of the positions of a word are distinct as long as the word is no longer than the order
of γ. -/
theorem GF.Embedding.injOn_pow_support {p : K[X]} {n : Nat} (short : p.degree < n)
    (fits : n ≤ 2 ^ m - 1) :
    Set.InjOn (fun l => φ.val GF.gen ^ l) (p.support : Set Nat) := by
  refine pow_injOn_Iio_orderOf.mono fun l hl => ?_
  have low : l < n := WithBot.coe_lt_coe.1
    ((le_degree_of_ne_zero (mem_support_iff.1 hl)).trans_lt short)
  rw [Set.mem_Iio, φ.orderOf_gen]
  omega

/-- Two words of a code with N roots differ in more than N positions (R129). -/
theorem BlockCode.Has.roots_lt_symbolDistance {code : BlockCode m} (φ : code.field.Embedding K)
    (fits : code.n ≤ 2 ^ m - 1) {u v : List (BitVec m)} (hu : code.Has u) (hv : code.Has v)
    (different : u ≠ v) : code.roots < symbolDistance u v := by
  obtain ⟨lengthU, -, zeroU⟩ := (code.has_iff φ u).1 hu
  obtain ⟨lengthV, -, zeroV⟩ := (code.has_iff φ v).1 hv
  have length := lengthU.trans lengthV.symm
  rw [φ.symbolDistance_eq_card length, ← not_le]
  intro few
  have short := φ.degree_wordPoly_sub_lt lengthU lengthV
  exact different (φ.wordPoly_inj length (sub_eq_zero.1 ((zeroU.sub zeroV).eq_zero_of_card_support_le
    few φ.gen_ne_zero (φ.injOn_pow_support short fits))))

/-- No word is within t of two words of a code with at least 2t roots (R129). -/
theorem BlockCode.Has.not_within_both {code : BlockCode m} (φ : code.field.Embedding K)
    (fits : code.n ≤ 2 ^ m - 1) {t : Nat} (bound : 2 * t ≤ code.roots) {u v w : List (BitVec m)}
    (hu : code.Has u) (hv : code.Has v) (different : u ≠ v) (length : w.length = code.n) :
    ¬ (symbolDistance u w ≤ t ∧ symbolDistance v w ≤ t) := by
  rintro ⟨nearU, nearV⟩
  have apart := hu.roots_lt_symbolDistance φ fits hv different
  have triangle := symbolDistance_triangle (hu.1.trans length.symm) (hv.1.trans length.symm)
  omega

end Sys2Proof.Machine
end

/-! ## The Berlekamp-Massey iteration -/

section
namespace Sys2Proof.Machine

open Polynomial

variable {K : Type} [Field K]

/-! ### Registers that generate the syndromes -/

/-- A connection polynomial of length L that generates the first n coefficients of S: the product with S
has no terms from x^L up to x^(n-1) (R132). -/
structure Generates (S : K[X]) (n L : Nat) (lam : K[X]) : Prop where
  constant : lam.coeff 0 = 1
  degree : lam.natDegree ≤ L
  key : ∀ k, L ≤ k → k < n → (S * lam).coeff k = 0

theorem Generates.of_succ {S lam : K[X]} {n L : Nat} (h : Generates S (n + 1) L lam) :
    Generates S n L lam :=
  ⟨h.constant, h.degree, fun k low high => h.key k low (Nat.lt_succ_of_lt high)⟩

theorem Generates.succ {S lam : K[X]} {n L : Nat} (h : Generates S n L lam)
    (zero : (S * lam).coeff n = 0) : Generates S (n + 1) L lam :=
  ⟨h.constant, h.degree, fun k low high => by
    obtain high | rfl := Nat.lt_succ_iff_lt_or_eq.1 high
    · exact h.key k low high
    · exact zero⟩

/-- A product of a short polynomial and one with a gap below x^n. -/
theorem coeff_mul_of_gap {p q : K[X]} {a b n : Nat} (short : p.natDegree ≤ a)
    (gap : ∀ j, b ≤ j → j < n → q.coeff j = 0) (fits : a + b ≤ n) :
    (p * q).coeff n = p.coeff 0 * q.coeff n := by
  rw [coeff_mul]
  refine Finset.sum_eq_single_of_mem (0, n) (by simp) fun x hx other => ?_
  obtain ⟨i, j⟩ := x
  rw [Finset.HasAntidiagonal.mem_antidiagonal] at hx
  have positive : i ≠ 0 := fun zero => other (by simp only [Prod.mk.injEq]; omega)
  by_cases high : b ≤ j
  · rw [gap j high (by omega), mul_zero]
  · rw [coeff_eq_zero_of_natDegree_lt (by omega), zero_mul]

/-- Massey's bound: where a register fails at the next coefficient, one that generates it is longer by
what the first leaves of the number of coefficients. -/
theorem Generates.le_add {S lam sigma : K[X]} {n L e : Nat} (h : Generates S n L lam)
    (fails : (S * lam).coeff n ≠ 0) (longer : Generates S (n + 1) e sigma) : n + 1 ≤ L + e := by
  by_contra short
  have left : (sigma * (S * lam)).coeff n = sigma.coeff 0 * (S * lam).coeff n :=
    coeff_mul_of_gap longer.degree h.key (by omega)
  have right : (lam * (S * sigma)).coeff n = lam.coeff 0 * (S * sigma).coeff n :=
    coeff_mul_of_gap h.degree longer.of_succ.key (by omega)
  have same : sigma * (S * lam) = lam * (S * sigma) := by ring
  rw [longer.constant, one_mul] at left
  rw [longer.key n (by omega) n.lt_succ_self, mul_zero] at right
  exact fails (left.symm.trans ((congrArg (coeff · n) same).trans right))

/-! ### What the iteration keeps -/

/-- The state of the iteration after n syndromes: Λ is a shortest register that generates them, and
`prev`, which is x^m · Bp, fails at the next coefficient alone, with the discrepancy b. Before the first
change of length `prev` does not count (R132). -/
structure ShortestRegister (S : K[X]) (n L : Nat) (lam prev : K[X]) (b : K) : Prop where
  generates : Generates S n L lam
  least : ∀ e sigma, Generates S n e sigma → L ≤ e
  len_le : L ≤ n
  b_ne_zero : b ≠ 0
  prev_constant : prev.coeff 0 = 0
  prev_degree : prev.natDegree ≤ n + 1 - L
  prev_gap : 0 < L → ∀ k, n + 1 - L ≤ k → k < n → (S * prev).coeff k = 0
  prev_fails : 0 < L → (S * prev).coeff n = b

theorem ShortestRegister.start (S : K[X]) : ShortestRegister S 0 0 1 X 1 where
  generates := ⟨coeff_one_zero, natDegree_one.le, fun k _ high => absurd high k.not_lt_zero⟩
  least e _ _ := e.zero_le
  len_le := le_rfl
  b_ne_zero := one_ne_zero
  prev_constant := coeff_X_zero
  prev_degree := natDegree_X_le
  prev_gap absurdity := absurd absurdity (lt_irrefl 0)
  prev_fails absurdity := absurd absurdity (lt_irrefl 0)

variable {S lam prev : K[X]} {n L : Nat} {b : K}

theorem natDegree_X_mul_le {p : K[X]} {a : Nat} (h : p.natDegree ≤ a) : (X * p).natDegree ≤ a + 1 :=
  natDegree_mul_le.trans (by rw [natDegree_X]; omega)

theorem coeff_mul_X_mul (p q : K[X]) (k : Nat) : (p * (X * q)).coeff (k + 1) = (p * q).coeff k := by
  rw [mul_left_comm, coeff_X_mul]

/-- The register that goes on unchanged in length: a gap of one more. -/
theorem ShortestRegister.keep {lam' : K[X]} (h : ShortestRegister S n L lam prev b)
    (generates : Generates S (n + 1) L lam') : ShortestRegister S (n + 1) L lam' (X * prev) b where
  generates := generates
  least e sigma longer := h.least e sigma longer.of_succ
  len_le := h.len_le.trans n.le_succ
  b_ne_zero := h.b_ne_zero
  prev_constant := by simp
  prev_degree := (natDegree_X_mul_le h.prev_degree).trans (by have := h.len_le; omega)
  prev_gap changed k low high := by
    obtain ⟨k, rfl⟩ : ∃ j, k = j + 1 := ⟨k - 1, by have := h.len_le; omega⟩
    rw [coeff_mul_X_mul]
    exact h.prev_gap changed k (by have := h.len_le; omega) (by omega)
  prev_fails changed := by rw [coeff_mul_X_mul, h.prev_fails changed]

section

variable [CharP K 2]

/-- Adding the right multiple of `prev` removes the discrepancy. -/
theorem ShortestRegister.corrected (h : ShortestRegister S n L lam prev b) :
    Generates S (n + 1) (max L (n + 1 - L)) (lam + C ((S * lam).coeff n / b) * prev) where
  constant := by simp [h.generates.constant, h.prev_constant]
  degree := (natDegree_add_le _ _).trans
    (max_le_max h.generates.degree ((natDegree_C_mul_le _ _).trans h.prev_degree))
  key k low high := by
    obtain ⟨lowL, lowPrev⟩ := max_le_iff.1 low
    have changed : 0 < L := by omega
    have sum : (S * (lam + C ((S * lam).coeff n / b) * prev)).coeff k
        = (S * lam).coeff k + (S * lam).coeff n / b * (S * prev).coeff k := by
      rw [mul_add, mul_left_comm, coeff_add, coeff_C_mul]
    rw [sum]
    obtain high | rfl := Nat.lt_succ_iff_lt_or_eq.1 high
    · rw [h.generates.key k lowL high, h.prev_gap changed k lowPrev high, mul_zero, add_zero]
    · rw [h.prev_fails changed, div_mul_cancel₀ _ h.b_ne_zero, CharTwo.add_self_eq_zero]

/-- The register that has to grow, by Massey's bound. -/
theorem ShortestRegister.grow (h : ShortestRegister S n L lam prev b) (fails : (S * lam).coeff n ≠ 0)
    (room : 2 * L ≤ n) :
    ShortestRegister S (n + 1) (n + 1 - L) (lam + C ((S * lam).coeff n / b) * prev) (X * lam)
      ((S * lam).coeff n) where
  generates := by simpa [max_eq_right (show L ≤ n + 1 - L by omega)] using h.corrected
  least e sigma longer := Nat.sub_le_iff_le_add'.2 (h.generates.le_add fails longer)
  len_le := by omega
  b_ne_zero := fails
  prev_constant := by simp
  prev_degree := (natDegree_X_mul_le h.generates.degree).trans (by omega)
  prev_gap _ k low high := by
    obtain ⟨k, rfl⟩ : ∃ j, k = j + 1 := ⟨k - 1, by omega⟩
    rw [coeff_mul_X_mul]
    exact h.generates.key k (by omega) (by omega)
  prev_fails _ := coeff_mul_X_mul S lam n

end

/-! ### The model's iteration -/

variable {m : Nat} {F : GF m} (φ : F.Embedding K)

theorem GF.Embedding.val_div (a : BitVec m) {b : BitVec m} (nonzero : b ≠ 0#m) :
    φ.val (F.div a b) = φ.val a / φ.val b := by
  rw [GF.div, φ.map_mul, φ.map_inv b nonzero, div_eq_mul_inv]

/-- Σ a_i · s_(n-i), the syndromes latest first, is a coefficient of a product. -/
theorem GF.Embedding.val_dot (a past : List (BitVec m)) :
    φ.val (F.dot a past) = (X * φ.poly a * φ.poly past.reverse).coeff past.length := by
  induction a generalizing past with
  | nil => simp [GF.dot]
  | cons x a ih =>
    cases past with
    | nil => simp [GF.dot]
    | cons s past =>
      have low : (φ.poly past.reverse).coeff past.length = 0 :=
        coeff_eq_zero_of_degree_lt (by simpa using φ.degree_poly_lt past.reverse)
      have product : X * φ.poly (x :: a) * φ.poly (s :: past).reverse
          = X * (C (φ.val x) * φ.poly past.reverse + X * φ.poly a * φ.poly past.reverse
              + X ^ past.length * (C (φ.val x * φ.val s) + X * (φ.poly a * C (φ.val s)))) := by
        rw [List.reverse_cons, φ.poly_append, φ.poly_cons, φ.poly_cons, φ.poly_nil,
          List.length_reverse, C_mul]
        ring
      have turn : F.dot (x :: a) (s :: past) = F.mul x s ^^^ F.dot a past := rfl
      rw [turn, φ.map_xor, φ.map_mul, ih, product, List.length_cons, coeff_X_mul, coeff_add, coeff_add,
        coeff_C_mul, low, coeff_X_pow_mul', if_pos le_rfl, Nat.sub_self]
      simp only [mul_zero, zero_add, C_mul, coeff_add, mul_coeff_zero, coeff_C_zero, coeff_X_zero,
        zero_mul, add_zero]
      ring

/-- The discrepancy is the coefficient at which the register is tested (R132). -/
theorem GF.Embedding.val_bmDiscrepancy {st : BerlekampMassey m} (s : BitVec m) (rest : List (BitVec m))
    (constant : (φ.poly st.lam).coeff 0 = 1) (degree : (φ.poly st.lam).natDegree ≤ st.len) :
    φ.val (bmDiscrepancy F st s)
      = (φ.poly (st.past.reverse ++ s :: rest) * φ.poly st.lam).coeff st.past.length := by
  have shape : φ.poly st.lam = 1 + X * φ.poly (st.lam.tail.take st.len) := by
    ext k
    cases k with
    | zero => simp [constant]
    | succ k =>
      rw [coeff_add, coeff_one, if_neg k.succ_ne_zero, zero_add, coeff_X_mul, φ.coeff_poly,
        φ.coeff_poly]
      by_cases within : k < st.len
      · simp [List.getD_eq_getElem?_getD, within]
      · have zero := coeff_eq_zero_of_natDegree_lt (degree.trans_lt (by omega : st.len < k + 1))
        rw [φ.coeff_poly] at zero
        rw [zero, List.getD_eq_default _ _ (by simp; omega), φ.map_zero]
  have low : (φ.poly st.past.reverse).coeff st.past.length = 0 :=
    coeff_eq_zero_of_degree_lt (by simpa using φ.degree_poly_lt st.past.reverse)
  have product : φ.poly (st.past.reverse ++ s :: rest) * φ.poly st.lam
      = φ.poly st.past.reverse + X * φ.poly (st.lam.tail.take st.len) * φ.poly st.past.reverse
        + X ^ st.past.length * (φ.poly (s :: rest) * φ.poly st.lam) := by
    rw [φ.poly_append, List.length_reverse, shape]
    ring
  have last : (φ.poly (s :: rest) * φ.poly st.lam).coeff 0 = φ.val s := by
    rw [mul_coeff_zero, constant, mul_one]
    simp
  rw [product, coeff_add, coeff_add, low, coeff_X_pow_mul', if_pos le_rfl, Nat.sub_self, last,
    ← φ.val_dot, zero_add, add_comm, ← φ.map_xor, bmDiscrepancy]

/-- The state of the model's iteration is such a register. -/
def GF.Embedding.BmRegister (S : K[X]) (st : BerlekampMassey m) : Prop :=
  ShortestRegister S st.past.length st.len (φ.poly st.lam) (X ^ st.gap * φ.poly st.prev) (φ.val st.b)

theorem GF.Embedding.bmStart_register (S : K[X]) : φ.BmRegister S bmStart := by
  simpa [GF.Embedding.BmRegister, bmStart, φ.map_one] using ShortestRegister.start S

theorem GF.Embedding.poly_bmUpdated (st : BerlekampMassey m) (d : BitVec m) (nonzero : st.b ≠ 0#m) :
    φ.poly (bmUpdated F st d)
      = φ.poly st.lam + C (φ.val d / φ.val st.b) * (X ^ st.gap * φ.poly st.prev) := by
  rw [bmUpdated, φ.poly_polyAdd, φ.poly_polyShift, φ.poly_scale, φ.val_div d nonzero]
  ring

variable [CharP K 2]

/-- One turn: the three cases of R132. -/
theorem GF.Embedding.bmStep_register {st : BerlekampMassey m} {s : BitVec m} {rest : List (BitVec m)}
    (h : φ.BmRegister (φ.poly (st.past.reverse ++ s :: rest)) st) :
    φ.BmRegister (φ.poly (st.past.reverse ++ s :: rest)) (bmStep F st s) := by
  have discrepancy := φ.val_bmDiscrepancy s rest h.generates.constant h.generates.degree
  have b_ne_zero : st.b ≠ 0#m := fun zero => h.b_ne_zero (φ.val_eq_zero_iff.2 zero)
  unfold bmStep
  split
  case isTrue agrees =>
    rw [agrees, φ.map_zero] at discrepancy
    have next := h.keep (h.generates.succ discrepancy.symm)
    rwa [← mul_assoc, ← pow_succ'] at next
  case isFalse fails =>
    have fails : (φ.poly (st.past.reverse ++ s :: rest) * φ.poly st.lam).coeff st.past.length ≠ 0 := by
      rw [← discrepancy, Ne, φ.val_eq_zero_iff]
      exact fails
    have updated := φ.poly_bmUpdated st (bmDiscrepancy F st s) b_ne_zero
    rw [discrepancy] at updated
    split
    case isTrue room =>
      have next := h.grow fails room
      rw [← updated, ← discrepancy, ← pow_one (X : K[X])] at next
      exact next
    case isFalse full =>
      have corrected := h.corrected
      rw [max_eq_left (by omega), ← updated] at corrected
      have next := h.keep corrected
      rwa [← mul_assoc, ← pow_succ'] at next

@[simp] theorem past_bmStep (F : GF m) (st : BerlekampMassey m) (s : BitVec m) :
    (bmStep F st s).past = s :: st.past := by
  unfold bmStep
  split
  · rfl
  · split <;> rfl

/-- The iteration finds a shortest register that generates the syndromes (R132). -/
theorem GF.Embedding.berlekampMassey_register (syndromes : List (BitVec m)) :
    φ.BmRegister (φ.poly syndromes) (berlekampMassey F syndromes)
      ∧ (berlekampMassey F syndromes).past.length = syndromes.length := by
  have key : ∀ (rest : List (BitVec m)) (st : BerlekampMassey m),
      st.past.reverse ++ rest = syndromes → φ.BmRegister (φ.poly syndromes) st →
      φ.BmRegister (φ.poly syndromes) (rest.foldl (bmStep F) st)
        ∧ (rest.foldl (bmStep F) st).past.length = syndromes.length := by
    intro rest
    induction rest with
    | nil =>
      intro st whole h
      exact ⟨h, by simp [← whole]⟩
    | cons s rest ih =>
      intro st whole h
      subst whole
      exact ih _ (by simp) (φ.bmStep_register h)
  exact key syndromes bmStart rfl (φ.bmStart_register _)

end Sys2Proof.Machine
end

/-! ## Error locator and error values -/

section
namespace Sys2Proof.Machine

open Polynomial

variable {K : Type} [Field K] {γ : K}

/-! ### The polynomials that the decoder looks for -/

/-- The error locator of a set of positions: the product of 1 - γ^l x (R132, R133). -/
noncomputable def errorLocator (γ : K) (s : Finset Nat) : K[X] := ∏ l ∈ s, (1 - C (γ ^ l) * X)

/-- The error evaluator of an error polynomial (R134). -/
noncomputable def trueEvaluator (γ : K) (e : K[X]) : K[X] :=
  ∑ l ∈ e.support, C (e.coeff l * γ ^ l) * errorLocator γ (e.support.erase l)

theorem eval_errorLocator (γ x : K) (s : Finset Nat) :
    (errorLocator γ s).eval x = ∏ l ∈ s, (1 - γ ^ l * x) := by
  simp [errorLocator, eval_prod]

theorem coeff_errorLocator_zero (γ : K) (s : Finset Nat) : (errorLocator γ s).coeff 0 = 1 := by
  simp [coeff_zero_eq_eval_zero, eval_errorLocator]

theorem errorLocator_eq_mul_erase (γ : K) {s : Finset Nat} {l : Nat} (hl : l ∈ s) :
    errorLocator γ s = (1 - C (γ ^ l) * X) * errorLocator γ (s.erase l) :=
  (Finset.mul_prod_erase s _ hl).symm

theorem natDegree_errorLocator_le (γ : K) (s : Finset Nat) : (errorLocator γ s).natDegree ≤ s.card := by
  refine (natDegree_prod_le _ _).trans ((Finset.sum_le_card_nsmul _ _ 1 fun l _ => ?_).trans (by simp))
  compute_degree

theorem natDegree_errorLocator (nonzero : γ ≠ 0) (s : Finset Nat) :
    (errorLocator γ s).natDegree = s.card := by
  have factor : ∀ l ∈ s, (1 - C (γ ^ l) * X : K[X]).natDegree = 1 := fun l _ => by
    have linear := natDegree_C_mul_X (γ ^ l) (pow_ne_zero l nonzero)
    rw [natDegree_sub_eq_right_of_natDegree_lt (by rw [linear, natDegree_one]; exact one_pos), linear]
  rw [errorLocator, natDegree_prod _ _ fun l hl zero => ?_, Finset.sum_congr rfl factor,
    Finset.sum_const, smul_eq_mul, mul_one]
  exact zero_ne_one (natDegree_zero.symm.trans ((congrArg natDegree zero).symm.trans (factor l hl)))

/-- The locator is zero at the inverse locators of its positions and at no other. -/
theorem eval_errorLocator_inv_eq_zero_iff (nonzero : γ ≠ 0) {s : Finset Nat} {k : Nat}
    (apart : ∀ l ∈ s, γ ^ l = γ ^ k → l = k) :
    (errorLocator γ s).eval (γ ^ k)⁻¹ = 0 ↔ k ∈ s := by
  have unit := pow_ne_zero k nonzero
  rw [eval_errorLocator, Finset.prod_eq_zero_iff]
  constructor
  · rintro ⟨l, hl, zero⟩
    rw [sub_eq_zero, eq_comm, mul_inv_eq_one₀ unit] at zero
    rwa [← apart l hl zero]
  · exact fun hk => ⟨k, hk, by rw [mul_inv_cancel₀ unit, sub_self]⟩

theorem degree_trueEvaluator_lt (γ : K) (e : K[X]) : (trueEvaluator γ e).degree < e.support.card := by
  refine mem_degreeLT.1 (Submodule.sum_mem _ fun l hl => mem_degreeLT.2 ?_)
  have few : (errorLocator γ (e.support.erase l)).natDegree < e.support.card :=
    (natDegree_errorLocator_le _ _).trans_lt (Finset.card_erase_lt_of_mem hl)
  exact degree_le_natDegree.trans_lt
    (by exact_mod_cast (natDegree_C_mul_le _ _).trans_lt few)

/-- The generating function of the syndromes: each term of the error gives a geometric series. -/
theorem syndromes_eq_sum_geom {S e : K[X]} {N : Nat} (short : S.degree < N)
    (syndromes : ∀ j, j < N → S.coeff j = e.eval (γ ^ (j + 1))) :
    S = ∑ l ∈ e.support, C (e.coeff l * γ ^ l) * ∑ j ∈ Finset.range N, (C (γ ^ l) * X) ^ j := by
  ext k
  have series : ∀ l, (∑ j ∈ Finset.range N, (C (γ ^ l) * X) ^ j).coeff k
      = if k < N then (γ ^ l) ^ k else 0 := by
    intro l
    simp only [finsetSum_coeff, mul_pow, ← C_pow, coeff_C_mul, coeff_X_pow, mul_ite, mul_one, mul_zero,
      Finset.sum_ite_eq, Finset.mem_range]
  simp only [finsetSum_coeff, coeff_C_mul, series]
  split
  · rename_i low
    rw [syndromes k low, eval_eq_sum, sum_def]
    refine Finset.sum_congr rfl fun l _ => ?_
    ring
  · rename_i high
    rw [coeff_eq_zero_of_degree_lt (short.trans_le (by exact_mod_cast not_lt.1 high))]
    simp

/-- The key equation (R134). -/
theorem X_pow_dvd_syndromes_mul_locator_sub {S e : K[X]} {N : Nat} (short : S.degree < N)
    (syndromes : ∀ j, j < N → S.coeff j = e.eval (γ ^ (j + 1))) :
    X ^ N ∣ S * errorLocator γ e.support - trueEvaluator γ e := by
  rw [syndromes_eq_sum_geom short syndromes, trueEvaluator, Finset.sum_mul, ← Finset.sum_sub_distrib]
  refine Finset.dvd_sum fun l hl => ?_
  have series := geom_sum_mul_neg (C (γ ^ l) * X) N
  refine ⟨- (C (e.coeff l * γ ^ l) * C (γ ^ l) ^ N * errorLocator γ (e.support.erase l)), ?_⟩
  rw [errorLocator_eq_mul_erase γ hl]
  linear_combination (C (e.coeff l * γ ^ l) * errorLocator γ (e.support.erase l)) * series

/-- The evaluator at an inverse locator: the error value times what the locator is there without the
position (R134). -/
theorem eval_trueEvaluator_inv (nonzero : γ ≠ 0) {e : K[X]} {k : Nat} (hk : k ∈ e.support) :
    (trueEvaluator γ e).eval (γ ^ k)⁻¹
      = e.coeff k * (γ ^ k * (errorLocator γ (e.support.erase k)).eval (γ ^ k)⁻¹) := by
  rw [trueEvaluator, eval_finsetSum, Finset.sum_eq_single_of_mem k hk fun l _ other => ?_]
  · rw [eval_mul, eval_C, mul_assoc]
  · have zero : (errorLocator γ (e.support.erase l)).eval (γ ^ k)⁻¹ = 0 := by
      rw [eval_errorLocator]
      exact Finset.prod_eq_zero (Finset.mem_erase.2 ⟨other.symm, hk⟩)
        (by rw [mul_inv_cancel₀ (pow_ne_zero k nonzero), sub_self])
    rw [eval_mul, zero, mul_zero]

theorem eval_derivative_errorLocator_inv (nonzero : γ ≠ 0) {s : Finset Nat} {k : Nat} (hk : k ∈ s) :
    (derivative (errorLocator γ s)).eval (γ ^ k)⁻¹
      = - (γ ^ k * (errorLocator γ (s.erase k)).eval (γ ^ k)⁻¹) := by
  have factor : derivative (1 - C (γ ^ k) * X : K[X]) = - C (γ ^ k) := by
    rw [derivative_sub, derivative_one, derivative_C_mul_X, zero_sub]
  rw [errorLocator_eq_mul_erase γ hk, derivative_mul, factor]
  simp [mul_inv_cancel₀ (pow_ne_zero k nonzero)]

theorem eval_errorLocator_erase_inv_ne_zero (nonzero : γ ≠ 0) {s : Finset Nat} {k : Nat}
    (apart : ∀ l ∈ s, γ ^ l = γ ^ k → l = k) : (errorLocator γ (s.erase k)).eval (γ ^ k)⁻¹ ≠ 0 := by
  rw [Ne, eval_errorLocator_inv_eq_zero_iff nonzero fun l hl => apart l (Finset.mem_of_mem_erase hl)]
  exact Finset.notMem_erase k s

/-- Forney's formula (R134): the two values at an inverse locator give the error value, up to the sign
that characteristic 2 does not have. -/
theorem eval_trueEvaluator_div [CharP K 2] (nonzero : γ ≠ 0) {e : K[X]} {k : Nat}
    (hk : k ∈ e.support) (apart : ∀ l ∈ e.support, γ ^ l = γ ^ k → l = k) :
    (derivative (errorLocator γ e.support)).eval (γ ^ k)⁻¹ ≠ 0
      ∧ (trueEvaluator γ e).eval (γ ^ k)⁻¹ / (derivative (errorLocator γ e.support)).eval (γ ^ k)⁻¹
        = e.coeff k := by
  have value := mul_ne_zero (pow_ne_zero k nonzero) (eval_errorLocator_erase_inv_ne_zero nonzero apart)
  rw [eval_derivative_errorLocator_inv nonzero hk, eval_trueEvaluator_inv nonzero hk, CharTwo.neg_eq]
  exact ⟨value, mul_div_cancel_right₀ _ value⟩

/-! ### The iteration finds them -/

theorem generates_errorLocator {S e : K[X]} {N : Nat} (short : S.degree < N)
    (syndromes : ∀ j, j < N → S.coeff j = e.eval (γ ^ (j + 1))) :
    Generates S N e.support.card (errorLocator γ e.support) where
  constant := coeff_errorLocator_zero _ _
  degree := natDegree_errorLocator_le _ _
  key k low high := by
    have agree := X_pow_dvd_iff.1 (X_pow_dvd_syndromes_mul_locator_sub short syndromes) k high
    rw [coeff_sub, sub_eq_zero] at agree
    rw [agree]
    exact coeff_eq_zero_of_degree_lt
      ((degree_trueEvaluator_lt γ e).trans_le (by exact_mod_cast low))

/-- The locator is fixed by its constant term, its degree and its roots. -/
theorem eq_errorLocator_of_roots (nonzero : γ ≠ 0) {s : Finset Nat} {lam : K[X]}
    (apart : Set.InjOn (fun l => γ ^ l) (s : Set Nat)) (constant : lam.coeff 0 = 1)
    (degree : lam.natDegree ≤ s.card) (roots : ∀ k ∈ s, lam.eval (γ ^ k)⁻¹ = 0) :
    lam = errorLocator γ s := by
  classical
  refine eq_of_natDegree_lt_card_of_eval_eq' _ _ (insert 0 (s.image fun k => (γ ^ k)⁻¹))
    (fun x hx => ?_) ?_
  · obtain rfl | hx := Finset.mem_insert.1 hx
    · rw [← coeff_zero_eq_eval_zero, ← coeff_zero_eq_eval_zero, constant, coeff_errorLocator_zero]
    · obtain ⟨k, hk, rfl⟩ := Finset.mem_image.1 hx
      rw [roots k hk, (eval_errorLocator_inv_eq_zero_iff nonzero fun l hl => apart hl hk).2 hk]
  · have new : (0 : K) ∉ s.image fun k => (γ ^ k)⁻¹ := by simp [nonzero]
    rw [Finset.card_insert_of_notMem new,
      Finset.card_image_of_injOn fun k hk l hl same => apart hk hl (inv_injective same)]
    exact Nat.lt_succ_of_le (max_le degree (natDegree_errorLocator_le _ _))

theorem degree_mul_lt_of_le {p q : K[X]} {a b n : Nat} (hp : p.natDegree ≤ a) (hq : q.degree < b)
    (fits : a + b ≤ n) : (p * q).degree < n := by
  obtain rfl | nonzero := eq_or_ne q 0
  · rw [mul_zero, degree_zero]
    exact WithBot.bot_lt_coe n
  · have := (natDegree_lt_iff_degree_lt nonzero).2 hq
    have := natDegree_mul_le (p := p) (q := q)
    exact degree_le_natDegree.trans_lt (by exact_mod_cast (by omega : (p * q).natDegree < n))

/-- A register of length L leaves fewer than L terms of the product with the syndromes. -/
theorem Generates.degree_lt {S lam omega : K[X]} {N L : Nat} (h : Generates S N L lam)
    (product : X ^ N ∣ S * lam - omega) (low : omega.degree < N) : omega.degree < L := by
  refine (degree_lt_iff_coeff_zero _ _).2 fun k hk => ?_
  obtain high | high := Nat.lt_or_ge k N
  · have agree := X_pow_dvd_iff.1 product k high
    rwa [coeff_sub, h.key k hk high, zero_sub, neg_eq_zero] at agree
  · exact coeff_eq_zero_of_degree_lt (low.trans_le (by exact_mod_cast high))

/-- The register found is the error locator, and the product with the syndromes is the error evaluator,
as long as there are no more errors than half the number of syndromes (R132, R134). -/
theorem ShortestRegister.eq_errorLocator {S e lam prev omega : K[X]} {N L : Nat} {b : K}
    (h : ShortestRegister S N L lam prev b) (short : S.degree < N)
    (syndromes : ∀ j, j < N → S.coeff j = e.eval (γ ^ (j + 1))) (few : 2 * e.support.card ≤ N)
    (nonzero : γ ≠ 0) (apart : Set.InjOn (fun l => γ ^ l) (e.support : Set Nat))
    (product : X ^ N ∣ S * lam - omega) (low : omega.degree < N) :
    lam = errorLocator γ e.support ∧ L = e.support.card ∧ omega = trueEvaluator γ e := by
  have len := h.least _ _ (generates_errorLocator short syndromes)
  have key := X_pow_dvd_syndromes_mul_locator_sub short syndromes
  have lower := h.generates.degree_lt product low
  have cross : lam * trueEvaluator γ e = errorLocator γ e.support * omega := by
    refine sub_eq_zero.1 (eq_zero_of_dvd_of_degree_lt (p := X ^ N) ?_ ?_)
    · have split : lam * trueEvaluator γ e - errorLocator γ e.support * omega
          = errorLocator γ e.support * (S * lam - omega)
            - lam * (S * errorLocator γ e.support - trueEvaluator γ e) := by ring
      rw [split]
      exact dvd_sub (dvd_mul_of_dvd_right product _) (dvd_mul_of_dvd_right key _)
    · rw [degree_X_pow]
      exact (degree_sub_le _ _).trans_lt (max_lt
        (degree_mul_lt_of_le (h.generates.degree.trans len) (degree_trueEvaluator_lt γ e) (by omega))
        (degree_mul_lt_of_le (natDegree_errorLocator_le _ _) lower (by omega)))
  have roots : ∀ k ∈ e.support, lam.eval (γ ^ k)⁻¹ = 0 := by
    intro k hk
    have distinct : ∀ l ∈ e.support, γ ^ l = γ ^ k → l = k := fun l hl => apart hl hk
    have value := congrArg (eval (γ ^ k)⁻¹) cross
    rw [eval_mul, eval_mul, (eval_errorLocator_inv_eq_zero_iff nonzero distinct).2 hk, zero_mul,
      mul_eq_zero, eval_trueEvaluator_inv nonzero hk] at value
    exact value.resolve_right (mul_ne_zero (mem_support_iff.1 hk) (mul_ne_zero (pow_ne_zero k nonzero)
      (eval_errorLocator_erase_inv_ne_zero nonzero distinct)))
  obtain rfl := eq_errorLocator_of_roots nonzero apart h.generates.constant
    (h.generates.degree.trans len) roots
  refine ⟨rfl, len.antisymm ?_, ?_⟩
  · exact (natDegree_errorLocator nonzero _).symm.le.trans h.generates.degree
  · refine (sub_eq_zero.1 (eq_zero_of_dvd_of_degree_lt (p := X ^ N) ?_ ?_)).symm
    · have split : trueEvaluator γ e - omega = (S * errorLocator γ e.support - omega)
          - (S * errorLocator γ e.support - trueEvaluator γ e) := by ring
      rw [split]
      exact dvd_sub product key
    · rw [degree_X_pow]
      exact (degree_sub_le _ _).trans_lt (max_lt ((degree_trueEvaluator_lt γ e).trans_le
        (by exact_mod_cast (by omega : e.support.card ≤ N))) low)

end Sys2Proof.Machine
end

/-! ## The decoder -/

section
namespace Sys2Proof.Machine

open Polynomial

variable {m : Nat} {K : Type} [Field K]

/-! ### The polynomials of the algorithm -/

section
variable {F : GF m} (φ : F.Embedding K)

theorem GF.Embedding.natDegree_poly (p : List (BitVec m)) : (φ.poly p).natDegree = polyDegree p := by
  induction p using List.reverseRecOn with
  | nil => rfl
  | append_singleton p a ih =>
    by_cases zero : a = 0#m
    · have shorter : φ.poly (p ++ [a]) = φ.poly p := by simp [φ.poly_append, zero]
      rw [shorter, ih]
      simp [polyDegree, zero]
    · have top : (φ.poly (p ++ [a])).coeff p.length ≠ 0 := by
        rw [φ.coeff_poly, Ne, φ.val_eq_zero_iff]
        simpa using zero
      have low : (φ.poly (p ++ [a])).natDegree ≤ p.length :=
        natDegree_le_iff_coeff_eq_zero.2 fun i hi => by
          rw [φ.coeff_poly, List.getD_eq_default _ _ (by simpa using hi), φ.map_zero]
      rw [natDegree_eq_of_le_of_coeff_ne_zero low top]
      simp [polyDegree, zero]

theorem GF.Embedding.poly_polyDerivative [CharP K 2] :
    ∀ p : List (BitVec m), φ.poly (polyDerivative p) = derivative (φ.poly p)
  | [] | [_] => by simp [polyDerivative]
  | a :: b :: p => by
    have rest := GF.Embedding.poly_polyDerivative p
    simp only [polyDerivative, φ.poly_cons, φ.map_zero, C_0, derivative_add, derivative_C,
      derivative_mul, derivative_X, rest]
    linear_combination (- φ.poly p * X) * CharTwo.two_eq_zero (R := K[X])

theorem GF.Embedding.X_pow_dvd_poly_sub_take (p : List (BitVec m)) (n : Nat) :
    X ^ n ∣ φ.poly p - φ.poly (p.take n) := by
  refine X_pow_dvd_iff.2 fun k hk => ?_
  rw [coeff_sub, φ.coeff_poly, φ.coeff_poly, sub_eq_zero]
  simp [List.getD_eq_getElem?_getD, hk]

theorem GF.Embedding.errorEvaluator_spec (syndromes lam : List (BitVec m)) :
    X ^ syndromes.length
        ∣ φ.poly syndromes * φ.poly lam - φ.poly (errorEvaluator F syndromes lam)
      ∧ (φ.poly (errorEvaluator F syndromes lam)).degree < syndromes.length := by
  refine ⟨?_, (φ.degree_poly_lt _).trans_le (by exact_mod_cast List.length_take_le _ _)⟩
  rw [← φ.poly_polyMul]
  exact φ.X_pow_dvd_poly_sub_take _ _

theorem GF.Embedding.isErrorPosition_iff (lam : List (BitVec m)) (x : BitVec m) :
    isErrorPosition F lam x = true ↔ (φ.poly lam).eval (φ.val x) = 0 := by
  rw [isErrorPosition, beq_iff_eq, ← φ.val_polyEval, φ.val_eq_zero_iff]

theorem GF.Embedding.coeff_wordPoly {w : List (BitVec m)} {i : Nat} (hi : i < w.length) :
    (φ.wordPoly w).coeff (w.length - 1 - i) = φ.val w[i] := by
  have inside : w.length - 1 - i < w.reverse.length := by
    rw [List.length_reverse]
    omega
  rw [GF.Embedding.wordPoly, φ.coeff_poly, List.getD_eq_getElem _ _ inside, List.getElem_reverse]
  congr 2
  omega

/-! ### The inverse locators -/

theorem GF.Embedding.val_inv_genPow (k : Nat) :
    φ.val (F.inv (F.genPow k)) = (φ.val GF.gen ^ k)⁻¹ := by
  rw [φ.map_inv, φ.map_genPow]
  rw [Ne, ← φ.val_eq_zero_iff, φ.map_genPow]
  exact pow_ne_zero k φ.gen_ne_zero

end

/-- The inverse locators, from the last position back (R133). -/
theorem BlockCode.inverseLocators_eq (code : BlockCode m) (φ : code.field.Embedding K) :
    code.inverseLocators
      = ((List.range code.n).map fun k => code.field.inv (code.field.genPow k)).reverse := by
  rw [BlockCode.inverseLocators]
  refine congrArg List.reverse (List.map_injective_iff.2 φ.injective ?_)
  have nonzero : GF.gen ≠ 0#m := fun zero => φ.gen_ne_zero (φ.val_eq_zero_iff.2 zero)
  rw [φ.map_powersFrom, List.map_map]
  refine List.map_congr_left fun k _ => ?_
  rw [Function.comp_apply, φ.val_inv_genPow, φ.map_one, one_mul, φ.map_inv _ nonzero, inv_pow]

/-! ### The correction of the positions -/

/-- At a position the algorithm takes r to s: it finds no error where they agree, and their difference as
the error value where they do not (R133, R134). -/
def Corrects (code : BlockCode m) (lam omega : List (BitVec m)) (r s x : BitVec m) : Prop :=
  if isErrorPosition code.field lam x then errorValue code lam omega x = some (r ^^^ s) else r = s

theorem correctPositions_cons (code : BlockCode m) (lam omega r xs : List (BitVec m)) (a x : BitVec m) :
    correctPositions code lam omega (a :: r) (x :: xs)
      = (correctPositions code lam omega r xs).bind fun rest =>
          if isErrorPosition code.field lam x then
            (errorValue code lam omega x).map fun v => (a ^^^ v) :: rest
          else some (a :: rest) := by
  rw [correctPositions]
  cases correctPositions code lam omega r xs with
  | none => rfl
  | some rest =>
    rw [Option.bind_some]
    dsimp only
    split
    · cases errorValue code lam omega x <;> rfl
    · rfl

theorem correctPositions_eq_some {code : BlockCode m} {lam omega r s xs : List (BitVec m)}
    (hs : s.length = r.length) (hx : xs.length = r.length)
    (h : ∀ (i : Nat) (hi : i < r.length), Corrects code lam omega r[i] s[i] xs[i]) :
    correctPositions code lam omega r xs = some s := by
  induction r generalizing s xs with
  | nil =>
    obtain rfl := List.length_eq_zero_iff.1 hs
    rfl
  | cons a r ih =>
    obtain ⟨b, s, rfl⟩ := List.exists_cons_of_length_eq_add_one hs
    obtain ⟨x, xs, rfl⟩ := List.exists_cons_of_length_eq_add_one hx
    have rest : correctPositions code lam omega r xs = some s :=
      ih (Nat.succ.inj hs) (Nat.succ.inj hx) fun i hi => h (i + 1) (Nat.succ_lt_succ hi)
    have first : Corrects code lam omega a b x := h 0 (Nat.succ_pos _)
    rw [correctPositions_cons, rest, Option.bind_some]
    unfold Corrects at first
    split at first
    · rename_i error
      simp [error, first]
    · rename_i fine
      simp [fine, first]

/-- An error value of a code of bits is 1 (R134). -/
theorem errorValue_of_binary {code : BlockCode m} {lam omega : List (BitVec m)} {x v : BitVec m}
    (h : errorValue code lam omega x = some v) (binary : code.binary = true) :
    v = BitVec.ofNat m 1 := by
  simp only [errorValue, binary, Bool.true_and, bne_iff_ne, ne_eq, ite_not] at h
  split at h
  · simp at h
  · split at h
    · simp at h
    · split at h
      · rename_i one
        exact (Option.some.inj h).symm.trans one
      · simp at h

theorem BlockCode.alphabet_cons (code : BlockCode m) (a : BitVec m) (w : List (BitVec m)) :
    code.Alphabet (a :: w) ↔ code.Alphabet [a] ∧ code.Alphabet w := by
  simp only [BlockCode.Alphabet, List.forall_mem_cons, List.not_mem_nil, false_imp_iff, forall_const,
    and_true]
  exact forall_and

/-- A corrected word differs from the received one at error positions only, and has symbols of the same
kind. -/
theorem correctPositions_sound {code : BlockCode m} {lam omega r s xs : List (BitVec m)}
    (hx : xs.length = r.length) (h : correctPositions code lam omega r xs = some s) :
    s.length = r.length
      ∧ symbolDistance r s ≤ xs.countP (isErrorPosition code.field lam)
      ∧ (code.Alphabet r → code.Alphabet s) := by
  induction r generalizing s xs with
  | nil =>
    simp only [correctPositions, Option.some.injEq] at h
    subst h
    exact ⟨rfl, Nat.zero_le _, id⟩
  | cons a r ih =>
    obtain ⟨x, xs, rfl⟩ := List.exists_cons_of_length_eq_add_one hx
    rw [correctPositions_cons] at h
    obtain ⟨rest, hrest, h⟩ := Option.bind_eq_some_iff.1 h
    obtain ⟨length, near, bits⟩ := ih (Nat.succ.inj hx) hrest
    rw [code.alphabet_cons]
    split at h
    · rename_i error
      obtain ⟨v, hv, rfl⟩ := Option.map_eq_some_iff.1 h
      refine ⟨congrArg Nat.succ length, ?_, fun ⟨first, others⟩ => ?_⟩
      · rw [symbolDistance_cons, List.countP_cons_of_pos error]
        split <;> omega
      · refine (code.alphabet_cons _ _).2 ⟨fun binary y hy => ?_, bits others⟩
        rw [List.mem_singleton.1 hy, errorValue_of_binary hv binary]
        obtain rfl | rfl := first binary a (List.mem_singleton_self a)
        · exact .inr (BitVec.zero_xor)
        · exact .inl BitVec.xor_self
    · rename_i fine
      obtain rfl := Option.some.inj h
      refine ⟨congrArg Nat.succ length, ?_, fun ⟨first, others⟩ =>
        (code.alphabet_cons _ _).2 ⟨first, bits others⟩⟩
      rw [symbolDistance_cons, if_pos rfl, List.countP_cons_of_neg fine]
      exact near

/-! ### A success is a codeword within the bound -/

theorem BlockCode.length_inverseLocators (code : BlockCode m) :
    code.inverseLocators.length = code.n := by
  simp [BlockCode.inverseLocators]

/-- What steps 2 to 5 return: a word that passed every check (R135). -/
theorem BlockCode.correct_sound {code : BlockCode m} (φ : code.field.Embedding K)
    {r s : List (BitVec m)} (length : r.length = code.n) (bits : code.Alphabet r)
    (h : code.correct r = some s) : code.Has s ∧ symbolDistance r s ≤ code.t := by
  unfold BlockCode.correct at h
  dsimp only at h
  split at h
  · cases h
  · rename_i bounded
    split at h
    · cases h
    · rename_i counted
      split at h
      · cases h
      · rename_i fixed corrected
        split at h
        · rename_i verified
          obtain rfl := Option.some.inj h
          obtain ⟨hs, near, kind⟩ := correctPositions_sound
            (code.length_inverseLocators.trans length.symm) corrected
          refine ⟨(code.has_iff φ _).2 ⟨hs.trans length, kind bits,
            (code.allZero_syndromes_iff φ _).1 verified⟩, ?_⟩
          omega
        · cases h

/-- A success of the decoder (R120 (e), R128). -/
theorem BlockCode.decodeWord_sound {code : BlockCode m} (φ : code.field.Embedding K)
    {r s : List (BitVec m)} (length : r.length = code.n) (bits : code.Alphabet r)
    (h : code.decodeWord r = some s) : code.Has s ∧ symbolDistance r s ≤ code.t := by
  unfold BlockCode.decodeWord at h
  split at h
  · rename_i zero
    obtain rfl := Option.some.inj h
    exact ⟨(code.has_iff φ _).2 ⟨length, bits, (code.allZero_syndromes_iff φ _).1 zero⟩,
      (symbolDistance_self _).trans_le code.t.zero_le⟩
  · split at h
    · cases h
    · exact BlockCode.correct_sound φ length bits h

/-! ### Every word within the bound is corrected -/

/-- The syndromes of the received word are those of the error, because the codeword has none (R131). -/
theorem BlockCode.coeff_poly_syndromes {code : BlockCode m} (φ : code.field.Embedding K)
    {r s : List (BitVec m)} (hs : code.Has s) {j n : Nat} (hj : j < n) (hn : n ≤ code.roots) :
    (φ.poly ((code.syndromes r).take n)).coeff j
      = (φ.wordPoly r - φ.wordPoly s).eval (φ.val GF.gen ^ (j + 1)) := by
  obtain ⟨-, -, zero⟩ := (code.has_iff φ s).1 hs
  rw [eval_sub, zero (j + 1) (Nat.le_add_left 1 j) (by omega), sub_zero, ← φ.map_wordEval_genPow,
    φ.coeff_poly, code.syndromes_eq φ]
  simp [List.getD_eq_getElem?_getD, hj, show j < code.roots by omega]

theorem errorValue_eq_some {code : BlockCode m} (φ : code.field.Embedding K) [CharP K 2]
    {lam omega : List (BitVec m)} {x v : BitVec m}
    (separable : (derivative (φ.poly lam)).eval (φ.val x) ≠ 0)
    (quotient : (φ.poly omega).eval (φ.val x) / (derivative (φ.poly lam)).eval (φ.val x) = φ.val v)
    (nonzero : v ≠ 0#m) (bits : code.binary = true → v = BitVec.ofNat m 1) :
    errorValue code lam omega x = some v := by
  have den : code.field.polyEval (polyDerivative lam) x ≠ 0#m := by
    rwa [Ne, ← φ.val_eq_zero_iff, φ.val_polyEval, φ.poly_polyDerivative]
  have value : code.field.div (code.field.polyEval omega x)
      (code.field.polyEval (polyDerivative lam) x) = v := by
    refine φ.injective ?_
    rw [φ.val_div _ den, φ.val_polyEval, φ.val_polyEval, φ.poly_polyDerivative, quotient]
  simp only [errorValue, value, if_neg den, if_neg nonzero]
  by_cases binary : code.binary = true
  · simp [bits binary]
  · simp [binary]

section
variable {code : BlockCode m} (φ : code.field.Embedding K) (fits : code.n ≤ 2 ^ m - 1)
  {r s lam omega : List (BitVec m)} (hr : r.length = code.n) (hs : s.length = code.n)
  (locator : φ.poly lam = errorLocator (φ.val GF.gen) (φ.wordPoly r - φ.wordPoly s).support)
include fits hr hs locator

/-- The Chien search finds the positions of the error (R133). -/
theorem BlockCode.isErrorPosition_iff_mem {k : Nat} (hk : k < code.n) :
    isErrorPosition code.field lam (code.field.inv (code.field.genPow k)) = true
      ↔ k ∈ (φ.wordPoly r - φ.wordPoly s).support := by
  rw [φ.isErrorPosition_iff, φ.val_inv_genPow, locator]
  refine eval_errorLocator_inv_eq_zero_iff φ.gen_ne_zero fun l hl same => ?_
  have low : l < code.n := WithBot.coe_lt_coe.1
    ((le_degree_of_ne_zero (mem_support_iff.1 hl)).trans_lt (φ.degree_wordPoly_sub_lt hr hs))
  exact pow_injOn_Iio_orderOf (by rw [Set.mem_Iio, φ.orderOf_gen]; omega)
    (by rw [Set.mem_Iio, φ.orderOf_gen]; omega) same

/-- As many of them as there are errors (R133). -/
theorem BlockCode.countP_isErrorPosition :
    code.inverseLocators.countP (isErrorPosition code.field lam)
      = (φ.wordPoly r - φ.wordPoly s).support.card := by
  have positions : (φ.wordPoly r - φ.wordPoly s).support
      = ((List.range code.n).filter fun k =>
          isErrorPosition code.field lam (code.field.inv (code.field.genPow k))).toFinset := by
    ext k
    rw [List.mem_toFinset, List.mem_filter, List.mem_range]
    by_cases hk : k < code.n
    · rw [BlockCode.isErrorPosition_iff_mem φ fits hr hs locator hk]
      exact (and_iff_right hk).symm
    · have zero := coeff_eq_zero_of_degree_lt ((φ.degree_wordPoly_sub_lt hr hs).trans_le
        (by exact_mod_cast not_lt.1 hk))
      simp [zero, hk]
  rw [positions, List.toFinset_card_of_nodup (List.nodup_range.filter _), code.inverseLocators_eq φ,
    List.countP_reverse, List.countP_map, List.countP_eq_length_filter]
  rfl

/-- Forney's values take the received word to the codeword (R134). -/
theorem BlockCode.corrects [CharP K 2] (bitsR : code.Alphabet r) (bitsS : code.Alphabet s)
    (evaluator : φ.poly omega = trueEvaluator (φ.val GF.gen) (φ.wordPoly r - φ.wordPoly s))
    {i : Nat} (hir : i < r.length) (his : i < s.length) (hix : i < code.inverseLocators.length) :
    Corrects code lam omega r[i] s[i] code.inverseLocators[i] := by
  have low : code.n - 1 - i < code.n := by omega
  have locatorOf : code.inverseLocators[i]
      = code.field.inv (code.field.genPow (code.n - 1 - i)) := by
    simp [code.inverseLocators_eq φ]
  have term : (φ.wordPoly r - φ.wordPoly s).coeff (code.n - 1 - i) = φ.val (r[i] ^^^ s[i]) := by
    rw [φ.map_xor, ← φ.coeff_wordPoly hir, ← φ.coeff_wordPoly his, hr, hs, coeff_sub,
      CharTwo.sub_eq_add]
  have found := BlockCode.isErrorPosition_iff_mem φ fits hr hs locator low
  rw [mem_support_iff, term, Ne, φ.val_eq_zero_iff, BitVec.xor_eq_zero_iff] at found
  rw [Corrects, locatorOf]
  split
  · rename_i error
    have different := found.1 error
    have nonzero : r[i] ^^^ s[i] ≠ 0#m := fun zero => different (BitVec.xor_eq_zero_iff.1 zero)
    have inside : code.n - 1 - i ∈ (φ.wordPoly r - φ.wordPoly s).support := by
      rwa [mem_support_iff, term, Ne, φ.val_eq_zero_iff]
    obtain ⟨separable, quotient⟩ := eval_trueEvaluator_div φ.gen_ne_zero inside
      fun l hl => φ.injOn_pow_support (φ.degree_wordPoly_sub_lt hr hs) fits hl inside
    rw [← φ.val_inv_genPow, ← locator, ← evaluator, term] at quotient
    rw [← φ.val_inv_genPow, ← locator] at separable
    refine errorValue_eq_some φ separable quotient nonzero fun binary => ?_
    obtain hr | hr := bitsR binary _ (List.getElem_mem hir) <;>
      obtain hs | hs := bitsS binary _ (List.getElem_mem his)
    · exact absurd (hr.trans hs.symm) different
    · rw [hr, hs, BitVec.zero_xor]
    · rw [hr, hs, BitVec.xor_zero]
    · exact absurd (hr.trans hs.symm) different
  · rename_i fine
    by_contra different
    exact fine (found.2 different)

end

/-- Steps 2 to 5, for a word within t of a codeword (R132 to R135). -/
theorem BlockCode.correct_eq_some [CharP K 2] {code : BlockCode m} (φ : code.field.Embedding K)
    (fits : code.n ≤ 2 ^ m - 1) (bound : 2 * code.t ≤ code.roots) {r s : List (BitVec m)}
    (hs : code.Has s) (length : r.length = code.n) (bits : code.Alphabet r)
    (near : symbolDistance r s ≤ code.t) : code.correct r = some s := by
  obtain ⟨lengthS, bitsS, zero⟩ := (code.has_iff φ s).1 hs
  rw [φ.symbolDistance_eq_card (length.trans lengthS.symm)] at near
  have count : ((code.syndromes r).take (2 * code.t)).length = 2 * code.t := by
    simp [BlockCode.syndromes, bound]
  obtain ⟨register, taken⟩ := φ.berlekampMassey_register ((code.syndromes r).take (2 * code.t))
  rw [GF.Embedding.BmRegister, taken] at register
  obtain ⟨product, low⟩ := φ.errorEvaluator_spec ((code.syndromes r).take (2 * code.t))
    (berlekampMassey code.field ((code.syndromes r).take (2 * code.t))).lam
  obtain ⟨locator, len, evaluator⟩ := register.eq_errorLocator (φ.degree_poly_lt _)
    (fun j hj => BlockCode.coeff_poly_syndromes φ hs (count ▸ hj) bound) (by omega) φ.gen_ne_zero
    (φ.injOn_pow_support (φ.degree_wordPoly_sub_lt length lengthS) fits) product low
  have degree := φ.natDegree_poly
    (berlekampMassey code.field ((code.syndromes r).take (2 * code.t))).lam
  rw [locator, natDegree_errorLocator φ.gen_ne_zero, ← len] at degree
  have corrected := correctPositions_eq_some (lengthS.trans length.symm)
    (code.length_inverseLocators.trans length.symm) fun i hi =>
      BlockCode.corrects φ fits length lengthS locator bits bitsS evaluator hi
        (by omega) (by rw [code.length_inverseLocators]; omega)
  rw [BlockCode.correct, if_neg (by omega), if_neg, corrected]
  · exact if_pos ((code.allZero_syndromes_iff φ s).2 zero)
  · rw [BlockCode.countP_isErrorPosition φ fits length lengthS locator, len]
    exact not_not.2 rfl

/-- Bounded-distance decoding: every word within t of a codeword is taken to it (R120 (d), R128). -/
theorem BlockCode.decodeWord_eq_some [CharP K 2] {code : BlockCode m} (φ : code.field.Embedding K)
    (fits : code.n ≤ 2 ^ m - 1) (bound : 2 * code.t ≤ code.roots) {r s : List (BitVec m)}
    (hs : code.Has s) (length : r.length = code.n) (bits : code.Alphabet r)
    (near : symbolDistance r s ≤ code.t) : code.decodeWord r = some s := by
  by_cases same : r = s
  · subst same
    rw [BlockCode.decodeWord, if_pos ((code.allZero_syndromes_iff φ r).2
      ((code.has_iff φ r).1 hs).2.2)]
  · have nonzero : ¬ allZero (code.syndromes r) = true := fun zero => by
      have hr : code.Has r :=
        (code.has_iff φ r).2 ⟨length, bits, (code.allZero_syndromes_iff φ r).1 zero⟩
      have := hr.roots_lt_symbolDistance φ fits hs same
      omega
    have errors : code.t ≠ 0 := fun zero => by
      rw [zero, Nat.le_zero, φ.symbolDistance_eq_card (length.trans hs.1.symm), Finset.card_eq_zero,
        support_eq_empty, sub_eq_zero] at near
      exact same (φ.wordPoly_inj (length.trans hs.1.symm) near)
    rw [BlockCode.decodeWord, if_neg nonzero, if_neg errors]
    exact BlockCode.correct_eq_some φ fits bound hs length bits near

end Sys2Proof.Machine
end

/-! ## The encoder -/

section
namespace Sys2Proof.Machine

open Polynomial

variable {m : Nat} {F : GF m} {K : Type} [Field K] (φ : F.Embedding K)

/-! ### The generator polynomial -/

section
variable [CharP K 2]

theorem GF.Embedding.wordPoly_mulByRoot (g : List (BitVec m)) (a : BitVec m) :
    φ.wordPoly (F.mulByRoot g a) = φ.wordPoly g * (X - C (φ.val a)) := by
  rw [GF.mulByRoot, φ.wordPoly_polyAdd (by simp), φ.wordPoly_append]
  simp only [φ.wordPoly_cons, φ.wordPoly_scale, φ.wordPoly_nil, φ.map_zero, length_scale,
    List.length_append, List.length_cons, List.length_nil, C_0, Nat.sub_self, pow_zero,
    CharTwo.sub_eq_add]
  ring

/-- The generator is the product of x - a over its roots (R123, R142). -/
theorem GF.Embedding.wordPoly_fromRoots (roots : List (BitVec m)) :
    φ.wordPoly (F.fromRoots roots) = (roots.map fun a => X - C (φ.val a)).prod := by
  have key : ∀ g, φ.wordPoly (roots.foldl F.mulByRoot g)
      = φ.wordPoly g * (roots.map fun a => X - C (φ.val a)).prod := by
    induction roots with
    | nil => simp
    | cons a roots ih =>
      intro g
      rw [List.foldl_cons, ih, φ.wordPoly_mulByRoot, List.map_cons, List.prod_cons, mul_assoc]
  rw [GF.fromRoots, key]
  simp [φ.map_one]

end

/-- The generator is monic. -/
theorem fromRoots_eq_cons (F : GF m) (roots : List (BitVec m)) :
    ∃ tail, F.fromRoots roots = BitVec.ofNat m 1 :: tail := by
  have key : ∀ tail, ∃ tail', roots.foldl F.mulByRoot (BitVec.ofNat m 1 :: tail)
      = BitVec.ofNat m 1 :: tail' := by
    induction roots with
    | nil => exact fun tail => ⟨tail, rfl⟩
    | cons a roots ih =>
      intro tail
      have step : F.mulByRoot (BitVec.ofNat m 1 :: tail) a = BitVec.ofNat m 1
          :: polyAdd (tail ++ [0#m]) (F.scale a (BitVec.ofNat m 1 :: tail)) := by
        simp [GF.mulByRoot, polyAdd]
      rw [List.foldl_cons, step]
      exact ih _
  exact key []

/-! ### The remainder -/

section
variable [CharP K 2]

/-- Long division changes a word by multiples of the divisor. -/
theorem GF.Embedding.dvd_wordPoly_sub_divSteps (tail : List (BitVec m)) (k : Nat)
    (r : List (BitVec m)) (length : r.length = k + tail.length) :
    φ.wordPoly (BitVec.ofNat m 1 :: tail) ∣ φ.wordPoly r - φ.wordPoly (F.divSteps tail k r) := by
  induction k generalizing r with
  | zero => simp [GF.divSteps]
  | succ k ih =>
    obtain ⟨c, rest, rfl⟩ := List.exists_cons_of_length_pos (show 0 < r.length by omega)
    have restLength : rest.length = k + tail.length := by
      rw [List.length_cons] at length
      omega
    have next := ih (polyAdd (F.scale c tail) rest) (by simp [restLength])
    have step : φ.wordPoly (c :: rest) - φ.wordPoly (polyAdd (F.scale c tail) rest)
        = φ.wordPoly (BitVec.ofNat m 1 :: tail) * (C (φ.val c) * X ^ k) := by
      rw [φ.wordPoly_polyAdd (by simp [restLength]), φ.wordPoly_scale, length_scale, φ.wordPoly_cons,
        φ.wordPoly_cons, restLength, Nat.add_sub_cancel, φ.map_one, C_1, CharTwo.sub_eq_add]
      linear_combination (φ.wordPoly rest) * CharTwo.two_eq_zero (R := K[X])
    rw [GF.divSteps, ← sub_add_sub_cancel _ (φ.wordPoly (polyAdd (F.scale c tail) rest))]
    exact dvd_add (step ▸ dvd_mul_right _ _) next

/-- The systematic codeword is a multiple of its generator (R126, R144). -/
theorem GF.Embedding.dvd_encodeSystematic (roots msg : List (BitVec m)) :
    φ.wordPoly (F.fromRoots roots) ∣ φ.wordPoly (F.encodeSystematic (F.fromRoots roots) msg) := by
  obtain ⟨tail, generator⟩ := fromRoots_eq_cons F roots
  have divides := φ.dvd_wordPoly_sub_divSteps tail msg.length
    (msg ++ List.replicate tail.length 0#m) (by simp)
  have length : (F.divSteps tail msg.length (msg ++ List.replicate tail.length 0#m)).length
      = tail.length := length_divSteps F tail _ _ (by simp)
  rw [generator, GF.encodeSystematic, GF.remainder, List.tail_cons, φ.wordPoly_append, length,
    ← CharTwo.sub_eq_add]
  simpa [φ.wordPoly_append] using divides

theorem GF.Embedding.eval_encodeSystematic {roots : List (BitVec m)} (msg : List (BitVec m))
    {a : BitVec m} (ha : a ∈ roots) :
    (φ.wordPoly (F.encodeSystematic (F.fromRoots roots) msg)).eval (φ.val a) = 0 := by
  obtain ⟨q, product⟩ := φ.dvd_encodeSystematic roots msg
  have factor : (φ.wordPoly (F.fromRoots roots)).eval (φ.val a) = 0 := by
    rw [φ.wordPoly_fromRoots, eval_list_prod]
    refine List.prod_eq_zero ?_
    simp only [List.map_map, List.mem_map, Function.comp_apply]
    exact ⟨a, ha, by simp⟩
  rw [product, eval_mul, factor, zero_mul]

end

theorem take_encodeSystematic (F : GF m) (gen msg : List (BitVec m)) :
    (F.encodeSystematic gen msg).take msg.length = msg := List.take_left

/-! ### The payload fixes the codeword -/

/-- Two words that begin alike and share as many zeros as they have symbols left are equal: the remainder
of R126 is the only one. -/
theorem GF.Embedding.eq_of_take_eq {u v : List (BitVec m)} {k r : Nat} (hu : u.length = k + r)
    (hv : v.length = k + r) (start : u.take k = v.take k) (zeros : Finset K) (many : r ≤ zeros.card)
    (zeroU : ∀ x ∈ zeros, (φ.wordPoly u).eval x = 0) (zeroV : ∀ x ∈ zeros, (φ.wordPoly v).eval x = 0) :
    u = v := by
  have restU : (u.drop k).length = r := by simp [hu]
  have restV : (v.drop k).length = r := by simp [hv]
  have split : ∀ w : List (BitVec m), φ.wordPoly w
      = φ.wordPoly (w.take k) * X ^ (w.drop k).length + φ.wordPoly (w.drop k) := fun w => by
    rw [← φ.wordPoly_append, List.take_append_drop]
  have difference : φ.wordPoly u - φ.wordPoly v = φ.wordPoly (u.drop k) - φ.wordPoly (v.drop k) := by
    rw [split u, split v, start, restU, restV, add_sub_add_left_eq_sub]
  refine φ.wordPoly_inj (hu.trans hv.symm) (sub_eq_zero.1 ?_)
  by_contra nonzero
  refine nonzero (eq_zero_of_natDegree_lt_card_of_eval_eq_zero' _ zeros (fun x hx => ?_) ?_)
  · rw [eval_sub, zeroU x hx, zeroV x hx, sub_zero]
  · refine ((natDegree_lt_iff_degree_lt nonzero).2 ?_).trans_le many
    rw [difference]
    exact φ.degree_wordPoly_sub_lt restU restV

/-! ### Words of bits -/

/-- All symbols are 0 or 1 (R140). -/
def AllBits (w : List (BitVec m)) : Prop := ∀ x ∈ w, x = 0#m ∨ x = BitVec.ofNat m 1

theorem AllBits.append {u v : List (BitVec m)} (hu : AllBits u) (hv : AllBits v) : AllBits (u ++ v) :=
  fun x hx => (List.mem_append.1 hx).elim (hu x) (hv x)

theorem xor_isBit {a b : BitVec m} (ha : a = 0#m ∨ a = BitVec.ofNat m 1)
    (hb : b = 0#m ∨ b = BitVec.ofNat m 1) : a ^^^ b = 0#m ∨ a ^^^ b = BitVec.ofNat m 1 := by
  obtain rfl | rfl := ha
  · rwa [BitVec.zero_xor]
  · obtain rfl | rfl := hb
    · exact .inr BitVec.xor_zero
    · exact .inl BitVec.xor_self

theorem AllBits.polyAdd {u v : List (BitVec m)} (hu : AllBits u) (hv : AllBits v) :
    AllBits (polyAdd u v) := by
  induction u generalizing v with
  | nil => cases v <;> exact hv
  | cons a u ih =>
    cases v with
    | nil => exact hu
    | cons b v =>
      obtain ⟨ha, hu⟩ := List.forall_mem_cons.1 hu
      obtain ⟨hb, hv⟩ := List.forall_mem_cons.1 hv
      exact List.forall_mem_cons.2 ⟨xor_isBit ha hb, ih hu hv⟩

include φ in
theorem AllBits.scale {w : List (BitVec m)} (hw : AllBits w) {c : BitVec m}
    (hc : c = 0#m ∨ c = BitVec.ofNat m 1) : AllBits (F.scale c w) := by
  intro x hx
  obtain ⟨a, ha, rfl⟩ := List.mem_map.1 hx
  obtain rfl | rfl := hc
  · exact .inl (φ.injective (by rw [φ.map_mul, φ.map_zero, zero_mul]))
  · have same : F.mul (BitVec.ofNat m 1) a = a := φ.injective (by rw [φ.map_mul, φ.map_one, one_mul])
    rw [same]
    exact hw a ha

include φ in
/-- Division by a polynomial over GF(2) stays over GF(2). -/
theorem AllBits.divSteps {tail : List (BitVec m)} (ht : AllBits tail) (k : Nat)
    {r : List (BitVec m)} (hr : AllBits r) : AllBits (F.divSteps tail k r) := by
  induction k generalizing r with
  | zero => cases r <;> exact hr
  | succ k ih =>
    cases r with
    | nil => exact hr
    | cons c rest =>
      obtain ⟨hc, hrest⟩ := List.forall_mem_cons.1 hr
      exact ih ((AllBits.scale φ ht hc).polyAdd hrest)

include φ in
theorem AllBits.encodeSystematic {gen msg : List (BitVec m)} (hg : AllBits gen) (hm : AllBits msg) :
    AllBits (F.encodeSystematic gen msg) :=
  hm.append (AllBits.divSteps φ (fun x hx => hg x (List.mem_of_mem_tail hx)) _
    (hm.append fun _ hx => .inl (List.eq_of_mem_replicate hx)))

end Sys2Proof.Machine
end

/-! ## The code of reed_solomon_codec -/

section
namespace Sys2Proof.Machine

open Polynomial

variable {b parity : Nat}

theorem exists_embedding_gf256 :
    ∃ (K : Type) (_ : Field K) (_ : CharP K 2), Nonempty (gf256.Embedding K) :=
  gf256.exists_embedding primitive_gf256 (by decide)

/-- Every byte is a symbol of RS (R125). -/
theorem rsCode_alphabet (w : Bytes) : (rsCode b parity).Alphabet w :=
  fun binary => absurd binary Bool.false_ne_true

/-- The codeword is zero at the roots of the generator (R123, R126). -/
theorem rsEncode_has (room : parity < b) {p : Bytes} (fits : p.length ≤ b - parity) :
    (rsCode b parity).Has (rsEncode b parity p) := by
  obtain ⟨K, _, _, ⟨φ⟩⟩ := exists_embedding_gf256
  refine ((rsCode b parity).has_iff φ _).2 ⟨?_, rsCode_alphabet _, fun j one le => ?_⟩
  · exact (length_rsEncode fits).trans (Nat.sub_add_cancel room.le)
  · have le : j ≤ parity := le
    have root : gf256.genPow j ∈ gf256.powersFrom GF.gen GF.gen parity := by
      rw [φ.powersFrom_gen, List.mem_map]
      exact ⟨j - 1, List.mem_range.2 (by omega), by rw [Nat.sub_add_cancel one]⟩
    have zero := φ.eval_encodeSystematic (padPayload (b - parity) p) root
    rwa [φ.map_genPow] at zero

theorem take_rsEncode {p : Bytes} (fits : p.length ≤ b - parity) :
    (rsEncode b parity p).take (b - parity) = padPayload (b - parity) p := by
  have start := take_encodeSystematic gf256 (rsGenerator parity) (padPayload (b - parity) p)
  rwa [length_padPayload fits] at start

/-- Settles O47: the remainder makes the word a multiple of the generator. -/
theorem rsEncodeIsSystematicCodeword : Obligations.RsEncodeIsSystematicCodeword :=
  fun _ _ _ _ room _ fits => ⟨rsEncode_has room fits, take_rsEncode fits⟩

theorem padPayload_of_length_eq {d : Nat} {q : Bytes} (length : q.length = d) : padPayload d q = q := by
  simp [padPayload, zeros, length]

/-- A word of the code is the codeword of its own payload region (R125, R126). -/
theorem rsEncode_take_of_has (room : parity < b) (small : b ≤ 255) {s : Bytes}
    (hs : (rsCode b parity).Has s) : rsEncode b parity (s.take (b - parity)) = s := by
  obtain ⟨K, _, _, ⟨φ⟩⟩ := exists_embedding_gf256
  have length : s.length = b := hs.1
  have payload : (s.take (b - parity)).length = b - parity := by simp [length]
  have encoded := rsEncode_has room payload.le
  obtain ⟨-, -, zeroS⟩ := ((rsCode b parity).has_iff φ s).1 hs
  obtain ⟨-, -, zeroE⟩ := ((rsCode b parity).has_iff φ _).1 encoded
  classical
  have distinct : Set.InjOn (fun j => φ.val GF.gen ^ j) (Finset.Icc 1 parity : Set Nat) := by
    refine pow_injOn_Iio_orderOf.mono fun j hj => ?_
    rw [Set.mem_Iio, φ.orderOf_gen]
    simp only [Finset.coe_Icc, Set.mem_Icc] at hj
    omega
  refine φ.eq_of_take_eq (k := b - parity) (r := parity) (length_rsEncode payload.le)
    (length.trans (Nat.sub_add_cancel room.le).symm) ?_
    ((Finset.Icc 1 parity).image fun j => φ.val GF.gen ^ j) ?_ ?_ ?_
  · rw [take_rsEncode payload.le, padPayload_of_length_eq payload]
  · rw [Finset.card_image_of_injOn distinct, Nat.card_Icc, Nat.add_sub_cancel]
  · intro x hx
    obtain ⟨j, hj, rfl⟩ := Finset.mem_image.1 hx
    exact zeroE j (Finset.mem_Icc.1 hj).1 (Finset.mem_Icc.1 hj).2
  · intro x hx
    obtain ⟨j, hj, rfl⟩ := Finset.mem_image.1 hx
    exact zeroS j (Finset.mem_Icc.1 hj).1 (Finset.mem_Icc.1 hj).2

/-- A success of RS `decode` (R120 (e)). -/
theorem rsDecode_sound (room : parity < b) (small : b ≤ 255) {w q : Bytes} (length : w.length = b)
    (decoded : rsDecode b parity w = some q) :
    q.length = b - parity ∧ symbolDistance w (rsEncode b parity q) ≤ parity / 2 := by
  obtain ⟨K, _, _, ⟨φ⟩⟩ := exists_embedding_gf256
  obtain ⟨s, found, rfl⟩ := Option.map_eq_some_iff.1 decoded
  obtain ⟨hs, near⟩ := BlockCode.decodeWord_sound (code := rsCode b parity) φ length
    (rsCode_alphabet w) found
  refine ⟨?_, ?_⟩
  · have : s.length = b := hs.1
    simp [this]
  · rw [rsEncode_take_of_has room small hs]
    exact near

/-- RS `decode` corrects up to its bound (R120 (d)). -/
theorem rsDecode_eq_some (room : parity < b) (small : b ≤ 255) {p w : Bytes}
    (fits : p.length ≤ b - parity) (length : w.length = b)
    (near : symbolDistance w (rsEncode b parity p) ≤ parity / 2) :
    rsDecode b parity w = some (padPayload (b - parity) p) := by
  obtain ⟨K, _, _, ⟨φ⟩⟩ := exists_embedding_gf256
  have found := BlockCode.decodeWord_eq_some (code := rsCode b parity) φ small
    (Nat.mul_div_le parity 2) (rsEncode_has room fits) length (rsCode_alphabet w) near
  rw [rsDecode, found, Option.map_some, take_rsEncode fits]

end Sys2Proof.Machine
end

/-! ## The generator of bch_codec -/

section
namespace Sys2Proof.Machine

/-! ### Cosets of exponents -/

theorem mem_doublings {i x : Nat} (n : Nat) (reduced : i < 2047) :
    x ∈ doublings i n ↔ ∃ u, u < n ∧ i * 2 ^ u % 2047 = x := by
  induction n generalizing i with
  | zero => simp [doublings]
  | succ n ih =>
    have double : ∀ u, i * 2 % 2047 * 2 ^ u % 2047 = i * 2 ^ (u + 1) % 2047 := fun u => by
      rw [Nat.mod_mul_mod, pow_succ', mul_assoc]
    rw [doublings, List.mem_cons, ih (Nat.mod_lt _ (by decide))]
    simp only [double]
    constructor
    · rintro (rfl | ⟨u, hu, rfl⟩)
      · exact ⟨0, n.succ_pos, by rw [pow_zero, mul_one, Nat.mod_eq_of_lt reduced]⟩
      · exact ⟨u + 1, Nat.succ_lt_succ hu, rfl⟩
    · rintro ⟨u, hu, rfl⟩
      cases u with
      | zero => exact .inl (by rw [pow_zero, mul_one, Nat.mod_eq_of_lt reduced])
      | succ u => exact .inr ⟨u, Nat.lt_of_succ_lt_succ hu, rfl⟩

theorem mem_cyclotomicCoset {i x : Nat} :
    x ∈ cyclotomicCoset i ↔ ∃ u, u < 11 ∧ i * 2 ^ u % 2047 = x := by
  simp only [cyclotomicCoset, List.mem_dedup, mem_doublings 11 (Nat.mod_lt i (by decide : 0 < 2047)),
    Nat.mod_mul_mod]

/-- Doubling eleven times changes nothing (R142). -/
theorem mul_two_pow_mod (i u : Nat) : i * 2 ^ u % 2047 = i * 2 ^ (u % 11) % 2047 := by
  have cycle : 2 ^ (11 * (u / 11)) ≡ 1 [MOD 2047] := by
    rw [pow_mul]
    simpa using (show 2 ^ 11 ≡ 1 [MOD 2047] from rfl).pow (u / 11)
  have turn : 2 ^ u ≡ 2 ^ (u % 11) [MOD 2047] := by
    calc 2 ^ u = 2 ^ (u % 11) * 2 ^ (11 * (u / 11)) := by rw [← pow_add, Nat.mod_add_div]
      _ ≡ 2 ^ (u % 11) * 1 [MOD 2047] := cycle.mul_left _
      _ = 2 ^ (u % 11) := mul_one _
  exact turn.mul_left i

theorem mem_cyclotomicCoset_of_eq {i x u : Nat} (h : i * 2 ^ u % 2047 = x) : x ∈ cyclotomicCoset i :=
  mem_cyclotomicCoset.2 ⟨u % 11, Nat.mod_lt u (by decide), by rw [← mul_two_pow_mod, h]⟩

theorem mem_cyclotomicCoset_trans {i x y : Nat} (hx : x ∈ cyclotomicCoset i)
    (hy : y ∈ cyclotomicCoset x) : y ∈ cyclotomicCoset i := by
  obtain ⟨u, -, rfl⟩ := mem_cyclotomicCoset.1 hx
  obtain ⟨v, -, rfl⟩ := mem_cyclotomicCoset.1 hy
  exact mem_cyclotomicCoset_of_eq (u := u + v) (by rw [Nat.mod_mul_mod, pow_add, mul_assoc])

/-- An exponent that is in a coset has that coset as its own. -/
theorem mem_cyclotomicCoset_symm {i x : Nat} (reduced : i < 2047) (hx : x ∈ cyclotomicCoset i) :
    i ∈ cyclotomicCoset x := by
  obtain ⟨u, hu, rfl⟩ := mem_cyclotomicCoset.1 hx
  refine mem_cyclotomicCoset_of_eq (u := 11 - u) ?_
  rw [Nat.mod_mul_mod, mul_assoc, ← pow_add, Nat.add_sub_of_le hu.le, mul_two_pow_mod, Nat.mod_self,
    pow_zero, mul_one, Nat.mod_eq_of_lt reduced]

theorem lt_of_mem_cyclotomicCoset {i x : Nat} (hx : x ∈ cyclotomicCoset i) : x < 2047 := by
  obtain ⟨u, -, rfl⟩ := mem_cyclotomicCoset.1 hx
  exact Nat.mod_lt _ (by decide)

/-! ### The exponents of a generator -/

theorem mem_generatorRootExponents {t x : Nat} :
    x ∈ generatorRootExponents t ↔ ∃ i, (1 ≤ i ∧ i ≤ 2 * t) ∧ x ∈ cyclotomicCoset i := by
  simp [generatorRootExponents, mem_cyclotomicCoset]

theorem generatorRootExponents_mono {t t' : Nat} (h : t ≤ t') :
    generatorRootExponents t ⊆ generatorRootExponents t' := fun x hx => by
  obtain ⟨i, ⟨one, le⟩, hx⟩ := mem_generatorRootExponents.1 hx
  exact mem_generatorRootExponents.2 ⟨i, ⟨one, by omega⟩, hx⟩

/-- These exponents stand for distinct minimal polynomials whose product is g_t (R142). -/
structure ListsRoots (es : List Nat) (t : Nat) : Prop where
  nodup : (es.flatMap cyclotomicCoset).Nodup
  mem_iff : ∀ x, x ∈ es.flatMap cyclotomicCoset ↔ x ∈ generatorRootExponents t

theorem ListsRoots.degree_eq_card {es : List Nat} {t : Nat} (h : ListsRoots es t) :
    degreeOfExponents es = (generatorRootExponents t).card := by
  have same : generatorRootExponents t = (es.flatMap cyclotomicCoset).toFinset := by
    ext x
    rw [List.mem_toFinset, h.mem_iff]
  rw [same, List.toFinset_card_of_nodup h.nodup, List.length_flatMap]
  rfl

theorem cosetListed_iff (es : List Nat) (i : Nat) :
    cosetListed es i = true ↔ i ∈ es.flatMap cyclotomicCoset := by
  simp [cosetListed, List.mem_flatMap]

/-- One exponent more: its coset is there already, or it meets none of those that are. -/
theorem addExponent_spec {es : List Nat} (nodup : (es.flatMap cyclotomicCoset).Nodup) {i : Nat}
    (reduced : i < 2047) :
    ((addExponent es i).flatMap cyclotomicCoset).Nodup
      ∧ ∀ x, x ∈ (addExponent es i).flatMap cyclotomicCoset
          ↔ x ∈ es.flatMap cyclotomicCoset ∨ x ∈ cyclotomicCoset i := by
  unfold addExponent
  split
  · rename_i listed
    refine ⟨nodup, fun x => (or_iff_left_of_imp fun hx => ?_).symm⟩
    obtain ⟨e, he, hi⟩ := List.mem_flatMap.1 ((cosetListed_iff es i).1 listed)
    exact List.mem_flatMap.2 ⟨e, he, mem_cyclotomicCoset_trans hi hx⟩
  · rename_i fresh
    rw [cosetListed_iff] at fresh
    rw [List.flatMap_append, List.flatMap_singleton]
    refine ⟨nodup.append (List.nodup_dedup _) fun x hes hi => fresh ?_, fun x => List.mem_append⟩
    obtain ⟨e, he, hx⟩ := List.mem_flatMap.1 hes
    exact List.mem_flatMap.2
      ⟨e, he, mem_cyclotomicCoset_trans hx (mem_cyclotomicCoset_symm reduced hi)⟩

theorem ListsRoots.zero : ListsRoots [] 0 where
  nodup := List.nodup_nil
  mem_iff x := by simp [generatorRootExponents]

theorem ListsRoots.succ {es : List Nat} {t : Nat} (h : ListsRoots es t) (small : 2 * t + 2 < 2047) :
    ListsRoots (addExponent (addExponent es (2 * t + 1)) (2 * t + 2)) (t + 1) := by
  obtain ⟨nodup₁, mem₁⟩ := addExponent_spec h.nodup (show 2 * t + 1 < 2047 by omega)
  obtain ⟨nodup₂, mem₂⟩ := addExponent_spec nodup₁ small
  refine ⟨nodup₂, fun x => ?_⟩
  rw [mem₂, mem₁, h.mem_iff, mem_generatorRootExponents, mem_generatorRootExponents]
  constructor
  · rintro ((⟨i, ⟨one, le⟩, hx⟩ | hx) | hx)
    · exact ⟨i, ⟨one, by omega⟩, hx⟩
    · exact ⟨2 * t + 1, ⟨by omega, by omega⟩, hx⟩
    · exact ⟨2 * t + 2, ⟨by omega, by omega⟩, hx⟩
  · rintro ⟨i, ⟨one, le⟩, hx⟩
    obtain le | rfl | rfl : i ≤ 2 * t ∨ i = 2 * t + 1 ∨ i = 2 * t + 2 := by omega
    · exact .inl (.inl ⟨i, ⟨one, le⟩, hx⟩)
    · exact .inl (.inr hx)
    · exact .inr hx

/-! ### The search for the bound -/

/-- The search ends at its limit or where the next generator no longer fits. -/
theorem searchBound_spec (parity : Nat) {fuel t : Nat} {es : List Nat} (h : ListsRoots es t)
    (limit : t + fuel = 1023) :
    ListsRoots (searchBound parity fuel t es).2 (searchBound parity fuel t es).1
      ∧ ((searchBound parity fuel t es).1 = 1023
        ∨ 8 * parity < (generatorRootExponents ((searchBound parity fuel t es).1 + 1)).card) := by
  induction fuel generalizing t es with
  | zero => exact ⟨h, .inl limit⟩
  | succ fuel ih =>
    have next := h.succ (by omega)
    unfold searchBound
    dsimp only
    split
    · exact ih next (by omega)
    · rename_i full
      rw [next.degree_eq_card] at full
      exact ⟨h, .inr (not_le.1 full)⟩

theorem bchBoundExponents_spec (parity : Nat) :
    ListsRoots (bchBoundExponents parity).2 (bchBound parity)
      ∧ (bchBound parity = 1023
        ∨ 8 * parity < (generatorRootExponents (bchBound parity + 1)).card) := by
  rw [bchBound, bchBoundExponents]
  exact searchBound_spec parity ListsRoots.zero (Nat.zero_add 1023)

theorem bchParityBits_eq_card (parity : Nat) :
    bchParityBits parity = (generatorRootExponents (bchBound parity)).card := by
  rw [bchParityBits, (bchBoundExponents_spec parity).1.degree_eq_card]

/-- As long as exponents do not come round again, each of 1, .., 2t is a root. -/
theorem two_mul_le_card_generatorRootExponents {t : Nat} (small : 2 * t < 2047) :
    2 * t ≤ (generatorRootExponents t).card := by
  have all : Finset.Icc 1 (2 * t) ⊆ generatorRootExponents t := fun x hx => by
    have bounds := Finset.mem_Icc.1 hx
    exact mem_generatorRootExponents.2
      ⟨x, bounds, mem_cyclotomicCoset_of_eq (u := 0) (by rw [pow_zero, mul_one]; omega)⟩
  simpa using Finset.card_le_card all

/-- Settles O49: the number of roots never falls as t grows, and at the limit of the search there would be
too many for any parity. -/
theorem bchBoundIsLargest : Obligations.BchBoundIsLargest := by
  intro parity _ small
  refine ⟨bchParityBits_eq_card parity, bchParityBits_le parity, fun t fits => ?_⟩
  obtain ⟨-, limit | full⟩ := bchBoundExponents_spec parity
  · have long := two_mul_le_card_generatorRootExponents (t := 1023) (by decide)
    have short := bchParityBits_le parity
    rw [bchParityBits_eq_card, limit] at short
    omega
  · by_contra above
    have grown := Finset.card_le_card (generatorRootExponents_mono (not_le.1 above))
    exact absurd (full.trans_le grown) (not_lt.2 fits)

end Sys2Proof.Machine
end

/-! ## The code of bch_codec -/

section
namespace Sys2Proof.Machine

open Polynomial

/-! ### Polynomials over GF(2) -/

section
variable {K : Type} [Field K]

theorem sq_eq_self_iff_bit {x : K} : x ^ 2 = x ↔ x = 0 ∨ x = 1 := by
  rw [← sub_eq_zero, show x ^ 2 - x = x * (x - 1) by ring, mul_eq_zero, sub_eq_zero]

variable {m : Nat} {F : GF m} (φ : F.Embedding K)

theorem GF.Embedding.val_bit_iff {x : BitVec m} :
    φ.val x = 0 ∨ φ.val x = 1 ↔ x = 0#m ∨ x = BitVec.ofNat m 1 := by
  rw [φ.val_eq_zero_iff, ← φ.map_one, φ.injective.eq_iff]

variable [CharP K 2]

/-- The polynomial has coefficients 0 and 1: squaring the coefficients changes nothing. -/
def OverGF2 (p : K[X]) : Prop := p.map (frobenius K 2) = p

theorem overGF2_iff (p : K[X]) : OverGF2 p ↔ ∀ i, p.coeff i = 0 ∨ p.coeff i = 1 := by
  rw [OverGF2, Polynomial.ext_iff]
  simp only [coeff_map, frobenius_def, sq_eq_self_iff_bit]

theorem OverGF2.eval_sq {p : K[X]} (h : OverGF2 p) (x : K) : p.eval (x ^ 2) = p.eval x ^ 2 := by
  have square := p.eval₂_at_apply (frobenius K 2) x
  rwa [← eval_map, h, frobenius_def, frobenius_def] at square

theorem OverGF2.eval_pow_two_pow {p : K[X]} (h : OverGF2 p) (x : K) (u : Nat) :
    p.eval (x ^ 2 ^ u) = p.eval x ^ 2 ^ u := by
  induction u with
  | zero => rw [pow_zero, pow_one, pow_one]
  | succ u ih => rw [pow_succ, pow_mul, h.eval_sq, ih, pow_mul]

theorem GF.Embedding.overGF2_wordPoly_iff (w : List (BitVec m)) :
    OverGF2 (φ.wordPoly w) ↔ AllBits w := by
  rw [overGF2_iff]
  constructor
  · intro h x hx
    obtain ⟨i, hi, rfl⟩ := List.mem_iff_getElem.1 hx
    rw [← φ.val_bit_iff, ← φ.coeff_wordPoly hi]
    exact h _
  · intro h i
    rw [GF.Embedding.wordPoly, φ.coeff_poly, φ.val_bit_iff]
    by_cases inside : i < w.reverse.length
    · rw [List.getD_eq_getElem _ _ inside]
      exact h _ (List.mem_reverse.1 (List.getElem_mem inside))
    · exact .inl (List.getD_eq_default _ _ (not_lt.1 inside))

end

/-! ### The generator polynomial has coefficients 0 and 1 -/

theorem lt_of_mem_generatorRootExponents {t e : Nat} (h : e ∈ generatorRootExponents t) : e < 2047 := by
  obtain ⟨i, -, hi⟩ := mem_generatorRootExponents.1 h
  exact lt_of_mem_cyclotomicCoset hi

theorem eq_of_double_mod_eq {e f : Nat} (he : e < 2047) (hf : f < 2047)
    (same : e * 2 ≡ f * 2 [MOD 2047]) : e = f :=
  (Nat.ModEq.cancel_right_of_coprime (by decide) same).eq_of_lt_of_lt he hf

theorem injOn_double_generatorRootExponents (t : Nat) :
    Set.InjOn (fun e => e * 2 % 2047) (generatorRootExponents t : Set Nat) := fun _ he _ hf same =>
  eq_of_double_mod_eq (lt_of_mem_generatorRootExponents he) (lt_of_mem_generatorRootExponents hf) same

/-- Doubling takes the exponents of a generator to themselves. -/
theorem image_double_generatorRootExponents (t : Nat) :
    (generatorRootExponents t).image (fun e => e * 2 % 2047) = generatorRootExponents t := by
  refine Finset.eq_of_subset_of_card_le (fun x hx => ?_)
    (Finset.card_image_of_injOn (injOn_double_generatorRootExponents t)).ge
  obtain ⟨e, he, rfl⟩ := Finset.mem_image.1 hx
  obtain ⟨i, bounds, hi⟩ := mem_generatorRootExponents.1 he
  exact mem_generatorRootExponents.2 ⟨i, bounds, mem_cyclotomicCoset_trans hi
    (mem_cyclotomicCoset_of_eq (u := 1) rfl)⟩

theorem exists_embedding_gf2048 :
    ∃ (K : Type) (_ : Field K) (_ : CharP K 2), Nonempty (gf2048.Embedding K) :=
  gf2048.exists_embedding primitive_gf2048 (by decide)

section
variable {K : Type} [Field K] (φ : gf2048.Embedding K)

/-- Exponents count modulo 2047 (R122, R140). -/
theorem GF.Embedding.gen_pow_mod (n : Nat) : φ.val GF.gen ^ (n % 2047) = φ.val GF.gen ^ n := by
  have order : orderOf (φ.val GF.gen) = 2047 := φ.orderOf_gen
  rw [← order, pow_mod_orderOf]

theorem GF.Embedding.injOn_pow_exponents (t : Nat) :
    Set.InjOn (fun e => φ.val GF.gen ^ e) (generatorRootExponents t : Set Nat) := by
  refine pow_injOn_Iio_orderOf.mono fun e he => ?_
  rw [Set.mem_Iio, φ.orderOf_gen]
  exact lt_of_mem_generatorRootExponents he

variable [CharP K 2]

theorem GF.Embedding.wordPoly_bchGenerator (parity : Nat) :
    φ.wordPoly (bchGenerator parity)
      = ∏ e ∈ generatorRootExponents (bchBound parity), (X - C (φ.val GF.gen ^ e)) := by
  obtain ⟨lists, -⟩ := bchBoundExponents_spec parity
  have same : generatorRootExponents (bchBound parity)
      = ((bchBoundExponents parity).2.flatMap cyclotomicCoset).toFinset := by
    ext e
    rw [List.mem_toFinset, lists.mem_iff]
  rw [bchGenerator, φ.wordPoly_fromRoots, same, List.prod_toFinset _ lists.nodup, List.map_map]
  simp [Function.comp_def, φ.map_genPow]

end

/-- The coefficients of the generator are 0 and 1, because squaring permutes its roots (R142). -/
theorem bchGenerator_allBits (parity : Nat) : AllBits (bchGenerator parity) := by
  obtain ⟨K, _, _, ⟨φ⟩⟩ := exists_embedding_gf2048
  have square : ∀ e, (X - C (φ.val GF.gen ^ e) : K[X]).map (frobenius K 2)
      = X - C (φ.val GF.gen ^ (e * 2 % 2047)) := fun e => by
    rw [Polynomial.map_sub, map_X, map_C, frobenius_def, φ.gen_pow_mod, pow_mul]
  have permuted := Finset.prod_image (f := fun e => (X - C (φ.val GF.gen ^ e) : K[X]))
    (injOn_double_generatorRootExponents (bchBound parity))
  rw [image_double_generatorRootExponents] at permuted
  rw [← φ.overGF2_wordPoly_iff, OverGF2, φ.wordPoly_bchGenerator, Polynomial.map_prod, permuted]
  exact Finset.prod_congr rfl fun e _ => square e

end Sys2Proof.Machine
end

/-! ## The codewords of bch_codec -/

section
namespace Sys2Proof.Machine

/-! ### Bytes and bits -/

theorem byteBits_byteOfBits (b7 b6 b5 b4 b3 b2 b1 b0 : Bool) :
    byteBits (byteOfBits b7 b6 b5 b4 b3 b2 b1 b0) = [b7, b6, b5, b4, b3, b2, b1, b0] := by
  simp (disch := decide) only [byteBits, byteOfBits, getLsbD_append_above, Nat.reduceSub,
    getLsbD_append_lowest, BitVec.getLsbD_ofBool, decide_true, Bool.true_and]

theorem byteBits_injective : Function.Injective byteBits := by
  intro x y h
  simp only [byteBits, List.cons.injEq, and_true] at h
  obtain ⟨h7, h6, h5, h4, h3, h2, h1, h0⟩ := h
  refine BitVec.eq_of_getLsbD_eq fun i hi => ?_
  interval_cases i <;> assumption

@[simp] theorem bitsOf_cons (x : Byte) (u : Bytes) : bitsOf (x :: u) = byteBits x ++ bitsOf u := rfl

/-- `bits` after `bytes`, for whole bytes (R141). -/
theorem bitsOf_bytesOf : ∀ v : List Bool, 8 ∣ v.length → bitsOf (bytesOf v) = v
  | _ :: _ :: _ :: _ :: _ :: _ :: _ :: _ :: rest, whole => by
    have : 8 ∣ rest.length := by simpa using whole
    rw [bytesOf, bitsOf_cons, byteBits_byteOfBits, bitsOf_bytesOf rest this]
    rfl
  | [], _ => rfl
  | [_], h | [_, _], h | [_, _, _], h | [_, _, _, _], h | [_, _, _, _, _], h | [_, _, _, _, _, _], h
  | [_, _, _, _, _, _, _], h => absurd h (by simp)

theorem bitsOf_injective : Function.Injective bitsOf := by
  intro u v h
  induction u generalizing v with
  | nil =>
    cases v with
    | nil => rfl
    | cons y v => cases h
  | cons x u ih =>
    cases v with
    | nil => cases h
    | cons y v =>
      obtain ⟨first, rest⟩ := List.append_inj h rfl
      rw [byteBits_injective first, ih rest]

/-- `bytes` after `bits` (R141). -/
theorem bytesOf_bitsOf (u : Bytes) : bytesOf (bitsOf u) = u :=
  bitsOf_injective (bitsOf_bytesOf _ (by rw [length_bitsOf]; exact dvd_mul_right 8 _))

theorem bitsOf_take (u : Bytes) (k : Nat) : bitsOf (u.take k) = (bitsOf u).take (8 * k) := by
  induction u generalizing k with
  | nil => simp [bitsOf]
  | cons x u ih =>
    cases k with
    | zero => rfl
    | succ k =>
      have bits : 8 * (k + 1) = (byteBits x).length + 8 * k := Nat.add_comm (8 * k) 8
      rw [List.take_succ_cons, bitsOf_cons, ih, bitsOf_cons, bits, List.take_length_add_append]

/-! ### Bits as symbols -/

theorem symbolBit_bitSymbol (b : Bool) : symbolBit (bitSymbol b) = b := by cases b <;> rfl

theorem bitSymbol_injective : Function.Injective bitSymbol :=
  Function.LeftInverse.injective symbolBit_bitSymbol

theorem allBits_map_bitSymbol (v : List Bool) : AllBits (v.map bitSymbol) := by
  intro x hx
  obtain ⟨b, -, rfl⟩ := List.mem_map.1 hx
  cases b
  · exact .inl rfl
  · exact .inr rfl

theorem map_symbolBit_map_bitSymbol (v : List Bool) : (v.map bitSymbol).map symbolBit = v := by
  simp [symbolBit_bitSymbol, Function.comp_def]

theorem AllBits.map_bitSymbol {w : List (BitVec 11)} (h : AllBits w) :
    (w.map symbolBit).map bitSymbol = w := by
  rw [List.map_map]
  refine (List.map_congr_left fun x hx => ?_).trans (List.map_id w)
  obtain rfl | rfl := h x hx <;> rfl

theorem symbolDistance_map {α β : Type} [DecidableEq α] [DecidableEq β] {f : α → β}
    (hf : Function.Injective f) (u v : List α) :
    symbolDistance (u.map f) (v.map f) = symbolDistance u v := by
  induction u generalizing v with
  | nil => cases v <;> rfl
  | cons a u ih =>
    cases v with
    | nil => rfl
    | cons b v => simp only [List.map_cons, symbolDistance_cons, ih, hf.eq_iff]

/-! ### The codeword -/

variable {b parity : Nat}

/-- The systematic codeword in symbols, without the pad bits (R144). -/
def bchSymbols (b parity : Nat) (p : Bytes) : List (BitVec 11) :=
  gf2048.encodeSystematic (bchGenerator parity) ((bitsOf (padPayload (b - parity) p)).map bitSymbol)

/-- The symbols that `decode` looks at (R143, R145). -/
def bchReceived (b parity : Nat) (w : Bytes) : List (BitVec 11) :=
  ((bitsOf w).take (bchCode b parity).n).map bitSymbol

theorem bchSymbols_allBits (p : Bytes) : AllBits (bchSymbols b parity p) := by
  obtain ⟨K, _, _, ⟨φ⟩⟩ := exists_embedding_gf2048
  exact AllBits.encodeSystematic φ (bchGenerator_allBits parity) (allBits_map_bitSymbol _)

theorem length_bchSymbols {p : Bytes} (fits : p.length ≤ b - parity) :
    (bchSymbols b parity p).length = (bchCode b parity).n := by
  have roots : (((bchBoundExponents parity).2.flatMap cyclotomicCoset).map gf2048.genPow).length
      = bchParityBits parity := by
    rw [List.length_map, List.length_flatMap]
    rfl
  rw [bchSymbols, bchGenerator, length_encodeSystematic, roots, List.length_map, length_bitsOf,
    length_padPayload fits]
  rfl

/-- The codeword's bits: payload and parity bits, then pad bits 0 (R143). -/
theorem bitsOf_bchEncode {p : Bytes} (fits : p.length ≤ b - parity) :
    bitsOf (bchEncode b parity p) = (bchSymbols b parity p).map symbolBit
      ++ List.replicate (8 * parity - bchParityBits parity) false := by
  refine bitsOf_bytesOf _ ?_
  have region := bchParityBits_le parity
  have length : (bchSymbols b parity p).length = 8 * (b - parity) + bchParityBits parity :=
    length_bchSymbols fits
  rw [bchSymbols] at length
  rw [List.length_append, List.length_map, length, List.length_replicate, add_assoc,
    Nat.add_sub_of_le region, ← mul_add]
  exact dvd_mul_right 8 _

theorem bchReceived_bchEncode {p : Bytes} (fits : p.length ≤ b - parity) :
    bchReceived b parity (bchEncode b parity p) = bchSymbols b parity p := by
  have length : ((bchSymbols b parity p).map symbolBit).length = (bchCode b parity).n := by
    rw [List.length_map, length_bchSymbols fits]
  rw [bchReceived, bitsOf_bchEncode fits, ← length, List.take_left,
    (bchSymbols_allBits p).map_bitSymbol]

theorem take_bchSymbols {p : Bytes} (fits : p.length ≤ b - parity) :
    (bchSymbols b parity p).take (8 * (b - parity))
      = (bitsOf (padPayload (b - parity) p)).map bitSymbol := by
  have start := take_encodeSystematic gf2048 (bchGenerator parity)
    ((bitsOf (padPayload (b - parity) p)).map bitSymbol)
  rwa [List.length_map, length_bitsOf, length_padPayload fits] at start

theorem bchCode_alphabet_iff (w : List (BitVec 11)) : (bchCode b parity).Alphabet w ↔ AllBits w :=
  ⟨fun h => h rfl, fun h _ => h⟩

theorem bchSymbols_has {p : Bytes} (fits : p.length ≤ b - parity) :
    (bchCode b parity).Has (bchSymbols b parity p) := by
  obtain ⟨K, _, _, ⟨φ⟩⟩ := exists_embedding_gf2048
  refine ((bchCode b parity).has_iff φ _).2 ⟨length_bchSymbols fits,
    (bchCode_alphabet_iff _).2 (bchSymbols_allBits p), fun j one le => ?_⟩
  have root : gf2048.genPow (j % 2047)
      ∈ ((bchBoundExponents parity).2.flatMap cyclotomicCoset).map gf2048.genPow := by
    refine List.mem_map.2 ⟨_, ((bchBoundExponents_spec parity).1.mem_iff _).2 ?_, rfl⟩
    exact mem_generatorRootExponents.2 ⟨j, ⟨one, le⟩, mem_cyclotomicCoset_of_eq (u := 0) (by simp)⟩
  have zero := φ.eval_encodeSystematic ((bitsOf (padPayload (b - parity) p)).map bitSymbol) root
  rwa [φ.map_genPow, φ.gen_pow_mod] at zero

theorem take_bchEncode {p : Bytes} (fits : p.length ≤ b - parity) :
    (bchEncode b parity p).take (b - parity) = padPayload (b - parity) p := by
  refine bitsOf_injective ?_
  have start := congrArg (List.map symbolBit) (take_bchSymbols fits)
  rw [map_symbolBit_map_bitSymbol, List.map_take] at start
  rw [bitsOf_take, bitsOf_bchEncode fits, List.take_append_of_le_length, start]
  rw [List.length_map, length_bchSymbols fits]
  exact Nat.le_add_right _ _

/-- Settles O48: the symbols of the codeword are bits, so that nothing is lost in the bytes. -/
theorem bchEncodeIsSystematicCodeword : Obligations.BchEncodeIsSystematicCodeword := by
  intro b parity p _ room _ fits
  refine ⟨(length_bchEncode fits).trans (Nat.sub_add_cancel room.le), take_bchEncode fits, ?_, ?_⟩
  · have received := bchReceived_bchEncode fits
    rw [bchReceived] at received
    rw [received]
    exact bchSymbols_has fits
  · intro x hx
    have length : ((bchSymbols b parity p).map symbolBit).length = (bchCode b parity).n := by
      rw [List.length_map, length_bchSymbols fits]
    rw [bitsOf_bchEncode fits, ← length, List.drop_left] at hx
    exact List.eq_of_mem_replicate hx

end Sys2Proof.Machine
end

/-! ## The codec commands -/

section
namespace Sys2Proof.Machine

/-- Settles O46: both functions test the parity first (R136). -/
theorem codecPassesThroughWithoutParity : Obligations.CodecPassesThroughWithoutParity := by
  intro cfg data none
  exact ⟨if_pos none, if_pos none⟩

/-- A length that `VALUE[15:0]` can hold is the whole `VALUE` (R150). -/
theorem encValue_eq_ofNat {len : Nat} (fits : len < 2 ^ 16) : encValue len = BitVec.ofNat 64 len := by
  apply BitVec.eq_of_toNat_eq
  rw [encValue, BitVec.toNat_append, BitVec.toNat_ofNat, BitVec.toNat_ofNat, BitVec.toNat_ofNat,
    Nat.mod_eq_of_lt fits, Nat.mod_eq_of_lt (fits.trans (by decide))]
  simp

/-- A valid configuration leaves room for a payload (R6, R303). -/
theorem parity_lt_bufferSize {cfg : Cfg} (valid : strapsValid cfg = true) :
    cfg.parity < cfg.bufferSize :=
  ((strapsValid_iff cfg).1 valid).2.1

/-- Under a valid configuration a codeword has B bytes (R120 (a)). -/
theorem length_codecEncode {cfg : Cfg} (valid : strapsValid cfg = true) (coded : cfg.parity ≠ 0)
    {p : Bytes} (fits : p.length ≤ cfg.bufferSize - cfg.parity) :
    (codecEncode cfg p).length = cfg.bufferSize := by
  have room := Nat.sub_add_cancel (parity_lt_bufferSize valid).le
  rw [codecEncode, if_neg coded]
  cases cfg.codecKind with
  | rs => exact (length_rsEncode fits).trans room
  | bch => exact (length_bchEncode fits).trans room

theorem length_codecEncode_lt {cfg : Cfg} (valid : strapsValid cfg = true) {data : Bytes}
    (transfer : data.length ≤ 65535)
    (admitted : cfg.parity = 0 ∨ data.length ≤ cfg.bufferSize - cfg.parity) :
    (codecEncode cfg data).length < 2 ^ 16 := by
  by_cases coded : cfg.parity = 0
  · rw [(codecPassesThroughWithoutParity cfg data coded).1]
    omega
  · have := bufferSize_le cfg
    rw [length_codecEncode valid coded (admitted.resolve_left coded)]
    omega

/-- Settles O18: the three outcomes of the checks of R267; a codeword is short enough for `VALUE` and
`DLEN`. -/
theorem encReturnsCodeword : Obligations.EncReturnsCodeword := by
  refine ⟨fun s data inv ok transfer admitted => ?_, fun s data bad => ?_,
    fun s data ok coded long => ?_⟩
  · have short := length_codecEncode_lt (inv.cfgOk_valid.symm.trans ok) transfer admitted
    show execEnc data s = _
    rw [execEnc, guarded_pass ok ((payloadAdmitted_eq_true _ _).2 admitted), encValue_eq_ofNat short,
      respond_eq_answered _ _ _ _ (short.trans (by decide))]
    rfl
  · show execEnc data s = _
    rw [execEnc, guarded_unconfigured bad, raise_eq_faulted]
    rfl
  · have misfit : payloadAdmitted s.blk.cfg data = false := by
      rw [Bool.eq_false_iff, Ne, payloadAdmitted_eq_true]
      omega
    show execEnc data s = _
    rw [execEnc, guarded_badLength ok misfit, raise_eq_faulted]
    rfl

/-- Settles O19: the three outcomes of the checks of R267, and the two results of `decode`. -/
theorem decReturnsPayloadOrFailure : Obligations.DecReturnsPayloadOrFailure := by
  refine ⟨fun s data payload _ ok transfer admitted decoded => ?_,
    fun s data ok admitted decoded => ?_, fun s data bad => ?_, fun s data ok coded length => ?_⟩
  · have short := length_codecDecode_le decoded
    show execDec data s = _
    rw [execDec, guarded_pass ok ((codewordAdmitted_eq_true _ _).2 admitted), decoded, respondDecoded,
      respond_eq_answered _ _ _ _ (by omega)]
    rfl
  · show execDec data s = _
    rw [execDec, guarded_pass ok ((codewordAdmitted_eq_true _ _).2 admitted), decoded, respondDecoded,
      respond_eq_answered _ _ _ _ (by decide)]
    rfl
  · show execDec data s = _
    rw [execDec, guarded_unconfigured bad, raise_eq_faulted]
    rfl
  · have misfit : codewordAdmitted s.blk.cfg data = false := by
      rw [Bool.eq_false_iff, Ne, codewordAdmitted_eq_true]
      omega
    show execDec data s = _
    rw [execDec, guarded_badLength ok misfit, raise_eq_faulted]
    rfl

end Sys2Proof.Machine
end

/-! ## What both codec kinds decode -/

section
namespace Sys2Proof.Machine

open Polynomial

variable {b parity : Nat}

/-! ### bch_codec -/

/-- The code length is below the order of the element 2, for every B (R140). -/
theorem bchCode_n_le (room : parity < b) (small : b ≤ 255) : (bchCode b parity).n ≤ 2 ^ 11 - 1 := by
  have region := bchParityBits_le parity
  show 8 * (b - parity) + bchParityBits parity ≤ 2047
  omega

/-- A word of the code is zero at all roots of the generator: squaring takes one to the next (R145). -/
theorem eval_wordPoly_of_bchCode_has {K : Type} [Field K] [CharP K 2] (φ : gf2048.Embedding K)
    {s : List (BitVec 11)} (hs : (bchCode b parity).Has s) {e : Nat}
    (he : e ∈ generatorRootExponents (bchBound parity)) :
    (φ.wordPoly s).eval (φ.val GF.gen ^ e) = 0 := by
  obtain ⟨-, bits, zero⟩ := ((bchCode b parity).has_iff φ s).1 hs
  obtain ⟨i, ⟨one, le⟩, hi⟩ := mem_generatorRootExponents.1 he
  obtain ⟨u, -, rfl⟩ := mem_cyclotomicCoset.1 hi
  have overGF2 := (φ.overGF2_wordPoly_iff s).2 ((bchCode_alphabet_iff s).1 bits)
  have root : (φ.wordPoly s).eval (φ.val GF.gen ^ i) = 0 := zero i one le
  rw [φ.gen_pow_mod, pow_mul, overGF2.eval_pow_two_pow, root, zero_pow (by positivity)]

/-- The payload in the symbols of a codeword (R143). -/
def bchPayload (b parity : Nat) (s : List (BitVec 11)) : Bytes :=
  bytesOf ((s.take (8 * (b - parity))).map symbolBit)

theorem bchPayload_bchSymbols {p : Bytes} (fits : p.length ≤ b - parity) :
    bchPayload b parity (bchSymbols b parity p) = padPayload (b - parity) p := by
  rw [bchPayload, take_bchSymbols fits, map_symbolBit_map_bitSymbol, bytesOf_bitsOf]

theorem length_bchPayload {s : List (BitVec 11)} (length : s.length = (bchCode b parity).n) :
    (bchPayload b parity s).length = b - parity := by
  have region : 8 * (b - parity) ≤ s.length := length ▸ Nat.le_add_right _ _
  rw [bchPayload, length_bytesOf, List.length_map, List.length_take_of_le region,
    Nat.mul_div_cancel_left _ (by decide)]

/-- A word of the code is the codeword of its own payload region (R144, R145). -/
theorem bchSymbols_bchPayload_of_has {s : List (BitVec 11)} (hs : (bchCode b parity).Has s) :
    bchSymbols b parity (bchPayload b parity s) = s := by
  obtain ⟨K, _, _, ⟨φ⟩⟩ := exists_embedding_gf2048
  have bits : AllBits s := hs.2.1 rfl
  have payload := length_bchPayload hs.1
  have encoded := bchSymbols_has payload.le
  have region : 8 * (b - parity) ≤ s.length := hs.1 ▸ Nat.le_add_right _ _
  classical
  refine φ.eq_of_take_eq (k := 8 * (b - parity)) (r := bchParityBits parity) encoded.1 hs.1 ?_
    ((generatorRootExponents (bchBound parity)).image fun e => φ.val GF.gen ^ e) ?_ ?_ ?_
  · have whole : 8 ∣ ((s.take (8 * (b - parity))).map symbolBit).length := by
      rw [List.length_map, List.length_take_of_le region]
      exact dvd_mul_right 8 _
    rw [take_bchSymbols payload.le, padPayload_of_length_eq payload, bchPayload,
      bitsOf_bytesOf _ whole]
    exact AllBits.map_bitSymbol fun x hx => bits x (List.mem_of_mem_take hx)
  · rw [Finset.card_image_of_injOn (φ.injOn_pow_exponents _), bchParityBits_eq_card]
  · intro x hx
    obtain ⟨e, he, rfl⟩ := Finset.mem_image.1 hx
    exact eval_wordPoly_of_bchCode_has φ encoded he
  · intro x hx
    obtain ⟨e, he, rfl⟩ := Finset.mem_image.1 hx
    exact eval_wordPoly_of_bchCode_has φ hs he

theorem bchDecode_eq (b parity : Nat) (w : Bytes) : bchDecode b parity w
    = ((bchCode b parity).decodeWord (bchReceived b parity w)).map (bchPayload b parity) := rfl

theorem length_bchReceived (room : parity < b) {w : Bytes} (length : w.length = b) :
    (bchReceived b parity w).length = (bchCode b parity).n := by
  have region := bchParityBits_le parity
  have short : (bchCode b parity).n ≤ 8 * b := by
    show 8 * (b - parity) + bchParityBits parity ≤ 8 * b
    omega
  rw [bchReceived, List.length_map, List.length_take_of_le]
  rwa [length_bitsOf, length]

theorem bchReceived_alphabet (w : Bytes) :
    (bchCode b parity).Alphabet (bchReceived b parity w) :=
  (bchCode_alphabet_iff _).2 (allBits_map_bitSymbol _)

/-- A success of BCH `decode` (R120 (e)). -/
theorem bchDecode_sound (room : parity < b) {w q : Bytes} (length : w.length = b)
    (decoded : bchDecode b parity w = some q) :
    q.length = b - parity
      ∧ symbolDistance (bchReceived b parity w) (bchReceived b parity (bchEncode b parity q))
          ≤ bchBound parity := by
  obtain ⟨K, _, _, ⟨φ⟩⟩ := exists_embedding_gf2048
  rw [bchDecode_eq] at decoded
  obtain ⟨s, found, rfl⟩ := Option.map_eq_some_iff.1 decoded
  obtain ⟨hs, near⟩ := BlockCode.decodeWord_sound (code := bchCode b parity) φ
    (length_bchReceived room length) (bchReceived_alphabet w) found
  have payload := length_bchPayload hs.1
  rw [bchReceived_bchEncode payload.le, bchSymbols_bchPayload_of_has hs]
  exact ⟨payload, near⟩

/-- BCH `decode` corrects up to its bound (R120 (d)). -/
theorem bchDecode_eq_some (room : parity < b) (small : b ≤ 255) {p w : Bytes}
    (fits : p.length ≤ b - parity) (length : w.length = b)
    (near : symbolDistance (bchReceived b parity w) (bchReceived b parity (bchEncode b parity p))
      ≤ bchBound parity) : bchDecode b parity w = some (padPayload (b - parity) p) := by
  obtain ⟨K, _, _, ⟨φ⟩⟩ := exists_embedding_gf2048
  rw [bchReceived_bchEncode fits] at near
  have found := BlockCode.decodeWord_eq_some (code := bchCode b parity) φ (bchCode_n_le room small)
    le_rfl (bchSymbols_has fits) (length_bchReceived room length) (bchReceived_alphabet w) near
  rw [bchDecode_eq, found, Option.map_some, bchPayload_bchSymbols fits]

/-! ### Both kinds -/

/-- The distance of BCH words is that of the symbols that `decode` looks at. -/
theorem codecDistance_bch {cfg : Cfg} (kind : cfg.codecKind = .bch) (u v : Bytes) :
    codecDistance cfg u v = symbolDistance (bchReceived cfg.bufferSize cfg.parity u)
      (bchReceived cfg.bufferSize cfg.parity v) := by
  rw [codecDistance, kind, bchReceived, bchReceived, symbolDistance_map bitSymbol_injective]
  rfl

/-- Settles O51: the corrected word is the codeword of its own payload. -/
theorem decodeSuccessIsWithinBound : Obligations.DecodeSuccessIsWithinBound := by
  intro cfg w q valid coded length decoded
  have room := parity_lt_bufferSize valid
  rw [codecDecode, if_neg coded] at decoded
  rw [codecEncode, if_neg coded, codecBound]
  cases kind : cfg.codecKind with
  | rs =>
    rw [kind] at decoded
    rw [codecDistance, kind]
    exact rsDecode_sound room (bufferSize_le cfg) length decoded
  | bch =>
    rw [kind] at decoded
    rw [codecDistance_bch kind]
    exact bchDecode_sound room length decoded

/-- Settles O52, by bounded-distance decoding of both codes. -/
theorem decodeCorrectsWithinBound : Obligations.DecodeCorrectsWithinBound := by
  intro cfg p w valid coded fits length near
  have room := parity_lt_bufferSize valid
  rw [codecEncode, if_neg coded, codecBound] at near
  rw [codecDecode, if_neg coded]
  cases kind : cfg.codecKind with
  | rs =>
    rw [codecDistance, kind] at near
    exact rsDecode_eq_some room (bufferSize_le cfg) fits length near
  | bch =>
    rw [codecDistance_bch kind, kind] at near
    exact bchDecode_eq_some room (bufferSize_le cfg) fits length near

theorem codecDistance_self (cfg : Cfg) (u : Bytes) : codecDistance cfg u u = 0 := by
  unfold codecDistance
  split <;> exact symbolDistance_self _

/-- Settles O50: a codeword is within the bound of itself. -/
theorem decodeOfEncodedPayload : Obligations.DecodeOfEncodedPayload := fun cfg p valid coded fits =>
  decodeCorrectsWithinBound cfg p _ valid coded fits (length_codecEncode valid coded fits)
    ((codecDistance_self cfg _).trans_le (Nat.zero_le _))

/-- Settles O53, by the number of roots of each code. -/
theorem codewordsKeepTheirDistance : Obligations.CodewordsKeepTheirDistance := by
  intro b parity _ room small
  obtain ⟨K, _, _, ⟨φ⟩⟩ := exists_embedding_gf256
  obtain ⟨L, _, _, ⟨ψ⟩⟩ := exists_embedding_gf2048
  have fits := bchCode_n_le room small
  exact ⟨fun u v hu hv different => ⟨hu.roots_lt_symbolDistance φ small hv different,
      fun w length => hu.not_within_both φ small (Nat.mul_div_le parity 2) hv different length⟩,
    fun u v hu hv different => ⟨hu.roots_lt_symbolDistance ψ fits hv different,
      fun w length => hu.not_within_both ψ fits le_rfl hv different length⟩⟩

end Sys2Proof.Machine
end

/-! ## The stream adapter -/

section
namespace Sys2Proof.Machine

/-! ### The values of the responses -/

theorem bitValue_eq_ite (b : Bool) : bitValue b = if b = true then 1#64 else 0#64 := by
  cases b <;> rfl

/-- The number of bytes written stands above the bit `ok`, as long as its field can hold it (R106). -/
theorem wrValue_eq_or {written : Nat} (fits : written < 2 ^ 16) (ok : Bool) :
    wrValue ok written = bitValue ok ||| (BitVec.ofNat 64 written <<< 16) := by
  have short : written < 2 ^ 64 := fits.trans (by decide)
  have below : written <<< 16 < 2 ^ 64 := by
    rw [Nat.shiftLeft_eq]
    omega
  apply BitVec.eq_of_toNat_eq
  simp only [wrValue, bitValue, BitVec.toNat_append, BitVec.toNat_or, BitVec.toNat_shiftLeft,
    BitVec.toNat_ofNat, Nat.zero_mod, Nat.zero_shiftLeft, Nat.zero_or, Nat.or_zero,
    ← Nat.shiftLeft_add, Nat.mod_eq_of_lt fits, Nat.mod_eq_of_lt short,
    Nat.mod_eq_of_lt below]
  exact Nat.or_comm _ _

/-! ### The exceptions of a guarded command -/

theorem guarded_faults_unconfigured {op : Byte} {admitted : Bool} {body : State → State} {s : State}
    (bad : s.blk.cfgOk = false) : guarded op admitted body s = faulted .cfgInvalid op s :=
  (guarded_unconfigured bad).trans (raise_eq_faulted _ op s)

theorem guarded_faults_badLength {op : Byte} {admitted : Bool} {body : State → State} {s : State}
    (ok : s.blk.cfgOk = true) (bad : admitted = false) :
    guarded op admitted body s = faulted .invalidInput op s :=
  (guarded_badLength ok bad).trans (raise_eq_faulted _ op s)

theorem noDataAdmitted_eq_false {data : Bytes} (present : data ≠ []) : noDataAdmitted data = false :=
  Bool.eq_false_iff.2 fun admitted => present ((noDataAdmitted_eq_true data).1 admitted)

theorem codewordAdmitted_eq_false {cfg : Cfg} {data : Bytes} (coded : cfg.parity ≠ 0)
    (length : data.length ≠ cfg.bufferSize) : codewordAdmitted cfg data = false :=
  Bool.eq_false_iff.2 fun admitted =>
    ((codewordAdmitted_eq_true cfg data).1 admitted).elim coded length

/-! ### `RD` -/

/-- `RD` makes its one `SrcRead(D)` whatever `ENC_GOOD` is, then answers (R171). -/
theorem exec_rd_eq_answerRead {s : State} (ok : s.blk.cfgOk = true) :
    exec (.rd []) s = .next (answerRead 0x20#8
      (srcCount s.blk.cfg.payloadSize (nextSrcAnswer s.env))
      (srcBytes s.blk.cfg.payloadSize (nextSrcAnswer s.env)) (srcRead s.blk.cfg.payloadSize s)) :=
  congrArg Host.Outcome.next (guarded_pass ok rfl)

theorem answerRead_ended {count : Int} (op : Byte) (s : State) (ended : count ≤ 0) (bytes : Bytes) :
    answerRead op count bytes s
      = answered (okResponse op (BitVec.ofInt 64 count) []) (clearEncGood s) := by
  rw [answerRead, if_pos ended, respond_eq_answered _ _ _ _ (by decide), rdValue]

/-- A payload of at most D bytes has a codeword that `DLEN` can count (R94, R172). -/
theorem answerRead_coded {count : Int} {bytes : Bytes} (op : Byte) (s : State) (pulled : 0 < count)
    (coded : s.blk.cfg.parity ≠ 0) (fits : bytes.length ≤ s.blk.cfg.payloadSize) :
    answerRead op count bytes s
      = answered (okResponse op (BitVec.ofNat 64 s.blk.cfg.bufferSize)
          (codecEncode s.blk.cfg bytes)) s := by
  have payload := payloadSize_le s.blk.cfg
  have codeword := length_codecEncode_le ((payloadAdmitted_eq_true s.blk.cfg bytes).2 (.inr fits))
  rw [answerRead, if_neg pulled.not_ge, if_pos (Nat.pos_of_ne_zero coded),
    respond_eq_answered _ _ _ _ (by omega), rdValue, BitVec.ofInt_natCast]

theorem answerRead_plain {count : Int} {bytes : Bytes} (op : Byte) (s : State) (pulled : 0 < count)
    (plain : s.blk.cfg.parity = 0) (fits : bytes.length ≤ s.blk.cfg.payloadSize) :
    answerRead op count bytes s
      = answered (okResponse op (BitVec.ofInt 64 count) bytes) s := by
  have payload := payloadSize_le s.blk.cfg
  rw [answerRead, if_neg pulled.not_ge, if_neg (Nat.not_lt.2 plain.le),
    respond_eq_answered _ _ _ _ (by omega), rdValue]

/-- Settles O21: the three answers to one `SrcRead(D)`, which hands over D bytes at most. -/
theorem rdPullsOnePayload : Obligations.RdPullsOnePayload := by
  refine ⟨?_, fun s data bad => congrArg _ (guarded_faults_unconfigured bad),
    fun s data ok present => congrArg _ (guarded_faults_badLength ok (noDataAdmitted_eq_false present))⟩
  rintro s - ok _ _ _ _ rfl rfl rfl rfl
  have fits := length_srcBytes_le s.blk.cfg.payloadSize (nextSrcAnswer s.env)
  rw [exec_rd_eq_answerRead ok]
  exact ⟨fun ended => congrArg _ (answerRead_ended _ (srcRead _ s) ended _),
    fun pulled coded => congrArg _ (answerRead_coded _ (srcRead _ s) pulled coded fits),
    fun pulled plain => congrArg _ (answerRead_plain _ (srcRead _ s) pulled plain fits)⟩

/-! ### `WR` -/

section
variable {s : State} {data : Bytes}

theorem exec_wr_plain (ok : s.blk.cfgOk = true) (plain : s.blk.cfg.parity = 0) :
    exec (.wr data) s
      = .next (respond 0x21#8 (wrValue true data.length) [] (sinkWrite data s)) := by
  show execWr data s = _
  rw [execWr, guarded_pass ok ((codewordAdmitted_eq_true _ _).2 (.inl plain)), writePath, if_pos plain]
  rfl

theorem exec_wr_decoded (ok : s.blk.cfgOk = true) (coded : s.blk.cfg.parity ≠ 0)
    (length : data.length = s.blk.cfg.bufferSize) {payload : Bytes}
    (decoded : codecDecode s.blk.cfg data = some payload) :
    exec (.wr data) s = .next (respond 0x21#8 (wrValue true s.blk.cfg.payloadSize) []
      (recordDecoded (sinkWrite payload s))) := by
  show execWr data s = _
  rw [execWr, guarded_pass ok ((codewordAdmitted_eq_true _ _).2 (.inr length)), writePath, if_neg coded,
    decoded]
  rfl

theorem exec_wr_uncorrectable (ok : s.blk.cfgOk = true) (coded : s.blk.cfg.parity ≠ 0)
    (length : data.length = s.blk.cfg.bufferSize) (failed : codecDecode s.blk.cfg data = none) :
    exec (.wr data) s = .next (respond 0x21#8 (wrValue false s.blk.cfg.payloadSize) []
      (recordBadChunk (writeErasurePlaceholder s))) := by
  show execWr data s = _
  rw [execWr, guarded_pass ok ((codewordAdmitted_eq_true _ _).2 (.inr length)), writePath, if_neg coded,
    failed]
  rfl

theorem exec_wr_unconfigured (bad : s.blk.cfgOk = false) :
    exec (.wr data) s = .next (faulted .cfgInvalid 0x21#8 s) :=
  congrArg Host.Outcome.next (guarded_faults_unconfigured bad)

theorem exec_wr_badLength (ok : s.blk.cfgOk = true) (coded : s.blk.cfg.parity ≠ 0)
    (length : data.length ≠ s.blk.cfg.bufferSize) :
    exec (.wr data) s = .next (faulted .invalidInput 0x21#8 s) :=
  congrArg Host.Outcome.next (guarded_faults_badLength ok (codewordAdmitted_eq_false coded length))

end

/-- The answer of a `WR` that does not raise, with `VALUE` as R106 gives it. -/
theorem respond_wrValue_eq_answered {written : Nat} (fits : written < 2 ^ 16) (op : Byte) (ok : Bool)
    (s : State) : respond op (wrValue ok written) [] s
      = answered (okResponse op (bitValue ok ||| (BitVec.ofNat 64 written <<< 16)) []) s := by
  rw [respond_eq_answered _ _ _ _ (by decide), wrValue_eq_or fits]

/-- Settles O22: the three writes, whose lengths `VALUE` can hold, and the two exceptions. -/
theorem wrWritesPayloadOrMarker : Obligations.WrWritesPayloadOrMarker := by
  have payload (cfg : Cfg) : cfg.payloadSize < 2 ^ 16 := (payloadSize_le cfg).trans_lt (by decide)
  refine ⟨fun s data ok short plain => ?_, fun s data _ ok coded length decoded => ?_,
    fun s data ok coded length failed => ?_, fun s data bad => exec_wr_unconfigured bad,
    fun s data ok coded length => exec_wr_badLength ok coded length⟩
  · rw [exec_wr_plain ok plain, respond_wrValue_eq_answered (Nat.lt_succ_of_le short)]
    rfl
  · rw [exec_wr_decoded ok coded length decoded, respond_wrValue_eq_answered (payload _)]
    rfl
  · rw [exec_wr_uncorrectable ok coded length failed, respond_wrValue_eq_answered (payload _),
      show bitValue false = 0#64 from rfl, BitVec.zero_or]
    rfl

/-! ### What `WR` appends to the sink -/

/-- A decoded payload has D bytes, under a configuration without room for one none (R120 (d)). -/
theorem length_codecDecode {cfg : Cfg} {w payload : Bytes} (coded : cfg.parity ≠ 0)
    (length : w.length = cfg.bufferSize) (decoded : codecDecode cfg w = some payload) :
    payload.length = cfg.bufferSize - cfg.parity := by
  rw [codecDecode, if_neg coded] at decoded
  by_cases room : cfg.parity < cfg.bufferSize
  · cases kind : cfg.codecKind with
    | rs =>
      rw [kind] at decoded
      exact (rsDecode_sound room (bufferSize_le cfg) length decoded).1
    | bch =>
      rw [kind] at decoded
      exact (bchDecode_sound room length decoded).1
  · have empty : cfg.bufferSize - cfg.parity = 0 := Nat.sub_eq_zero_of_le (Nat.le_of_not_lt room)
    cases kind : cfg.codecKind with
    | rs =>
      rw [kind] at decoded
      obtain ⟨c, -, rfl⟩ := Option.map_eq_some_iff.1 decoded
      rw [empty, List.take_zero, List.length_nil]
    | bch =>
      rw [kind] at decoded
      obtain ⟨c, -, rfl⟩ := Option.map_eq_some_iff.1 decoded
      simp only [empty, Nat.mul_zero, List.take_zero, List.map_nil, bytesOf, List.length_nil]

theorem sinkBytesOf_append_sinkWrite (calls : List Call) (bytes : Bytes) :
    sinkBytesOf (calls ++ [.sinkWrite bytes]) = sinkBytesOf calls ++ bytes := by
  simp [sinkBytesOf]

/-- Settles O23: the one `SinkWrite` is of a payload, of a marker as long, or of the data; an exception
makes no call. -/
theorem wrAdvancesSinkByFixedLength : Obligations.WrAdvancesSinkByFixedLength := by
  refine ⟨fun s data ok coded length => ?_, fun s data ok plain => ?_, fun s data raises => ?_⟩
  · cases decoded : codecDecode s.blk.cfg data with
    | some payload =>
      exact ⟨_, payload, exec_wr_decoded ok coded length decoded, sinkBytesOf_append_sinkWrite _ _,
        length_codecDecode coded length decoded⟩
    | none =>
      exact ⟨_, zeros s.blk.cfg.payloadSize, exec_wr_uncorrectable ok coded length decoded,
        sinkBytesOf_append_sinkWrite _ _, length_zeros _⟩
  · exact ⟨_, data, exec_wr_plain ok plain, sinkBytesOf_append_sinkWrite _ _, rfl⟩
  · by_cases ok : s.blk.cfgOk = true
    · obtain bad | ⟨coded, length⟩ := raises
      · exact absurd ok (Bool.eq_false_iff.1 bad)
      · exact ⟨_, exec_wr_badLength ok coded length, rfl⟩
    · exact ⟨_, exec_wr_unconfigured (Bool.eq_false_iff.2 ok), rfl⟩

/-! ### `GOODE` and `GOODD` -/

/-- A flag and a sampled bit make the one bit of the answer (R178, R179). -/
theorem respond_bitValue_and_eq_answered (op : Byte) (flag sample : Bool) (s : State) :
    respond op (bitValue (flag && sample)) [] s
      = answered (okResponse op (if flag = true ∧ sample = true then 1#64 else 0#64) []) s := by
  rw [respond_eq_answered _ _ _ _ (by decide), bitValue_eq_ite]
  simp only [Bool.and_eq_true]

/-- Settles O24: each command samples once, whatever its flag is. -/
theorem goodeGooddSampleHealth : Obligations.GoodeGooddSampleHealth := by
  refine ⟨fun s ok => ?_, fun s ok => ?_, fun s data bad => ?_, fun s data ok present => ?_⟩
  · exact congrArg _ ((guarded_pass ok rfl).trans (respond_bitValue_and_eq_answered _ _ _ (srcOk s)))
  · exact congrArg _ ((guarded_pass ok rfl).trans (respond_bitValue_and_eq_answered _ _ _ (sinkOk s)))
  · exact ⟨congrArg _ (guarded_faults_unconfigured bad), congrArg _ (guarded_faults_unconfigured bad)⟩
  · have misfit := noDataAdmitted_eq_false present
    exact ⟨congrArg _ (guarded_faults_badLength ok misfit),
      congrArg _ (guarded_faults_badLength ok misfit)⟩

end Sys2Proof.Machine
end

/-! ## `ACCEPT`, case by case -/

section
namespace Sys2Proof.Machine

/-! ### The tests of the indexer -/

section
variable {op : Byte} {g : Nat} {sid : Id16} {chunk : Bytes} {s : State}

theorem acceptChunk_finalized {e : Bool} (fin : s.blk.phase = .finalized) :
    acceptChunk op e g sid chunk s = acceptWithout op .ignoredFinalized s := if_pos fin

theorem acceptChunk_erased (live : s.blk.phase = .live) :
    acceptChunk op true g sid chunk s = acceptWithout op .erasedDropped s := by
  simp [acceptChunk, live]

theorem acceptChunk_flushed (live : s.blk.phase = .live) (below : g < s.blk.nextGroup) :
    acceptChunk op false g sid chunk s = acceptWithout op .ignoredFlushed s := by
  simp [acceptChunk, live, below]

theorem acceptChunk_open (live : s.blk.phase = .live) (opened : s.blk.nextGroup ≤ g) :
    acceptChunk op false g sid chunk s = acceptRouted op g sid chunk (raiseHigh g s) := by
  simp [acceptChunk, live, Nat.not_lt.2 opened]

theorem acceptChunk_resolved (live : s.blk.phase = .live) (opened : s.blk.nextGroup ≤ g)
    {payload : Bytes} (found : gtGet s.blk.gt g = some (.resolved payload)) :
    acceptChunk op false g sid chunk s = acceptWithout op .ignoredResolved (raiseHigh g s) := by
  rw [acceptChunk_open live opened]
  simp [acceptRouted, found]

theorem acceptChunk_collecting (live : s.blk.phase = .live) (opened : s.blk.nextGroup ≤ g)
    {held : List Symbol} (found : gtGet s.blk.gt g = some (.collecting held)) :
    acceptChunk op false g sid chunk s = acceptSymbol op g sid chunk held (raiseHigh g s) := by
  rw [acceptChunk_open live opened]
  simp [acceptRouted, found]

theorem acceptChunk_noGroup (live : s.blk.phase = .live) (opened : s.blk.nextGroup ≤ g)
    (absent : gtGet s.blk.gt g = none) (full : s.blk.cfg.maxGroups ≤ s.blk.gt.length) :
    acceptChunk op false g sid chunk s
      = acceptWithout op .droppedNoGroup (setOverflow (raiseHigh g s)) := by
  rw [acceptChunk_open live opened]
  simp [acceptRouted, absent, full]

theorem acceptChunk_newGroup (live : s.blk.phase = .live) (opened : s.blk.nextGroup ≤ g)
    (absent : gtGet s.blk.gt g = none) (space : s.blk.gt.length < s.blk.cfg.maxGroups) :
    acceptChunk op false g sid chunk s
      = acceptSymbol op g sid chunk [] (putEntry g (.collecting []) (raiseHigh g s)) := by
  rw [acceptChunk_open live opened]
  simp [acceptRouted, absent, Nat.not_le.2 space]

theorem any_sid_eq_true_iff {held : List Symbol} :
    held.any (fun x => x.1 == sid) = true ↔ sid ∈ held.map Prod.fst := by
  simp

theorem acceptSymbol_duplicate {held : List Symbol} (known : sid ∈ held.map Prod.fst) :
    acceptSymbol op g sid chunk held s = acceptWithout op .duplicate s :=
  if_pos (any_sid_eq_true_iff.2 known)

theorem acceptSymbol_storeFull {held : List Symbol} (fresh : sid ∉ held.map Prod.fst)
    (full : s.blk.cfg.maxSymbols ≤ held.length) :
    acceptSymbol op g sid chunk held s = acceptWithout op .droppedStoreFull (setOverflow s) :=
  (if_neg (mt any_sid_eq_true_iff.1 fresh)).trans (if_pos full)

theorem acceptSymbol_stored {held : List Symbol} (fresh : sid ∉ held.map Prod.fst)
    (room : held.length < s.blk.cfg.maxSymbols) :
    acceptSymbol op g sid chunk held s = acceptStored op g (held ++ [(sid, chunk)]) s :=
  (if_neg (mt any_sid_eq_true_iff.1 fresh)).trans (if_neg (Nat.not_le.2 room))

/-- A second entry for a group replaces the first. -/
theorem putEntry_putEntry (d e : GroupEntry) : putEntry g e (putEntry g d s) = putEntry g e s := by
  simp [putEntry]

/-- Below K symbols no attempt is made (R211). -/
theorem acceptStored_short {syms : List Symbol} (few : syms.length < s.blk.cfg.sourceChunks) :
    acceptStored op g syms s = acceptFlush op false false (putEntry g (.collecting syms) s) :=
  if_neg (Nat.not_le.2 few)

theorem acceptStored_failed {syms : List Symbol} (enough : s.blk.cfg.sourceChunks ≤ syms.length)
    (failed : reconstruct s.blk.cfg.sourceChunks s.blk.cfg.chunkSize syms = none) :
    acceptStored op g syms s = acceptFlush op true false (putEntry g (.collecting syms) s) := by
  simp [acceptStored, enough, failed]

theorem acceptStored_resolved {syms : List Symbol} {payload : Bytes}
    (enough : s.blk.cfg.sourceChunks ≤ syms.length)
    (rebuilt : reconstruct s.blk.cfg.sourceChunks s.blk.cfg.chunkSize syms = some payload) :
    acceptStored op g syms s = acceptFlush op true true (putEntry g (.resolved payload) s) := by
  simp [acceptStored, enough, rebuilt]

/-- The entry that a new group gets first leaves no trace. -/
theorem acceptStored_putEntry (syms : List Symbol) (d : GroupEntry) :
    acceptStored op g syms (putEntry g d s) = acceptStored op g syms s := by
  simp only [acceptStored, putEntry_cfg, putEntry_putEntry]

/-- A new symbol is stored beside those held, in an entry made where there is none. -/
theorem acceptChunk_stored (live : s.blk.phase = .live) (opened : s.blk.nextGroup ≤ g)
    {held : List Symbol} (stores : Stores s.blk g sid chunk held) :
    acceptChunk op false g sid chunk s
      = acceptStored op g (held ++ [(sid, chunk)]) (raiseHigh g s) := by
  obtain ⟨found | ⟨absent, rfl, space⟩, fresh, room, -⟩ := stores
  · rw [acceptChunk_collecting live opened found,
      acceptSymbol_stored (s := raiseHigh g s) fresh room]
  · rw [acceptChunk_newGroup live opened absent space,
      acceptSymbol_stored (s := putEntry g _ (raiseHigh g s)) fresh room, acceptStored_putEntry]

end

/-! ### The `ACCEPT`s that store nothing -/

theorem acceptWithout_eq_answered (op : Byte) (disp : Disposition) (s : State) :
    acceptWithout op disp s
      = answered (okResponse op ((dispositionCode disp).zeroExtend 64) []) s := by
  rw [acceptWithout, respond_eq_answered _ _ _ _ (by decide)]
  cases disp <;> rfl

/-- A chunk of C bytes passes the checks (R220, R267). -/
theorem exec_accept_eq {s : State} (e : Bool) (g sid : Id16) {data : Bytes} (ok : s.blk.cfgOk = true)
    (whole : data.length = s.blk.cfg.chunkSize) :
    exec (.accept e g sid data) s = .next (acceptChunk 0x30#8 e g.toNat sid data s) :=
  congrArg Host.Outcome.next (guarded_pass ok ((chunkAdmitted_eq_true _ _).2 whole))

theorem exec_accept_badLength {s : State} (e : Bool) (g sid : Id16) {data : Bytes}
    (ok : s.blk.cfgOk = true) (odd : data.length ≠ s.blk.cfg.chunkSize) :
    exec (.accept e g sid data) s = .next (faulted .invalidInput 0x30#8 s) :=
  congrArg Host.Outcome.next (guarded_faults_badLength ok
    (Bool.eq_false_iff.2 fun admitted => odd ((chunkAdmitted_eq_true _ _).1 admitted)))

/-- Settles O26: the phase is tested first, after the length. -/
theorem acceptAfterFinalizeIsIgnored : Obligations.AcceptAfterFinalizeIsIgnored := by
  refine ⟨fun s e g sid data ok fin whole => ?_,
    fun s e g sid data ok _ odd => exec_accept_badLength e g sid ok odd⟩
  rw [exec_accept_eq e g sid ok whole, acceptChunk_finalized fin, acceptWithout_eq_answered]
  rfl

/-- Settles O27: the flag is tested before the ids are looked at. -/
theorem acceptDropsErasedChunk : Obligations.AcceptDropsErasedChunk := by
  intro s g sid data ok live whole
  rw [exec_accept_eq true g sid ok whole, acceptChunk_erased live, acceptWithout_eq_answered]
  rfl

/-- Settles O28: a FLUSHED group is found by the cursor, a RESOLVED one in the table. -/
theorem acceptForClosedGroupIsIgnored : Obligations.AcceptForClosedGroupIsIgnored := by
  refine ⟨fun s g sid data ok live whole below => ?_,
    fun s g sid data payload ok live whole opened found => ?_⟩
  · rw [exec_accept_eq false g sid ok whole, acceptChunk_flushed live below,
      acceptWithout_eq_answered]
    rfl
  · rw [exec_accept_eq false g sid ok whole, acceptChunk_resolved live opened found,
      acceptWithout_eq_answered]
    rfl

/-- Settles O29: the duplicate is found by its symbol id alone. -/
theorem acceptIgnoresDuplicate : Obligations.AcceptIgnoresDuplicate := by
  intro s g sid data chunk held ok live whole opened found stored
  have known : sid ∈ held.map Prod.fst := List.mem_map_of_mem stored
  rw [exec_accept_eq false g sid ok whole, acceptChunk_collecting live opened found,
    acceptSymbol_duplicate known, acceptWithout_eq_answered]
  rfl

theorem notMem_sids {sid : Id16} {held : List Symbol} (fresh : ∀ x ∈ held, x.1 ≠ sid) :
    sid ∉ held.map Prod.fst := fun known =>
  have ⟨x, mem, eq⟩ := List.mem_map.1 known
  fresh x mem eq

/-- Settles O30: no room in the table, no room in the group's store. -/
theorem acceptWithoutRoomIsDropped : Obligations.AcceptWithoutRoomIsDropped := by
  refine ⟨fun s g sid data ok live whole opened absent full => ?_,
    fun s g sid data held ok live whole opened found fresh full => ?_⟩
  · rw [exec_accept_eq false g sid ok whole, acceptChunk_noGroup live opened absent full,
      acceptWithout_eq_answered]
    rfl
  · rw [exec_accept_eq false g sid ok whole, acceptChunk_collecting live opened found,
      acceptSymbol_storeFull (s := raiseHigh _ s) (notMem_sids fresh) full,
      acceptWithout_eq_answered]
    rfl

end Sys2Proof.Machine
end

/-! ## The flush loop -/

section
namespace Sys2Proof.Machine

/-! ### Flushes, one after the other -/

theorem afterFlushes_nil (s : State) : afterFlushes [] s = s := by
  simp [afterFlushes, pushAnswers]

/-- The answers to come, the next one first. -/
theorem pushAnswers_succ (g : Nat) (payload : Bytes) (n : Nat) (s : State) :
    pushAnswers s.env (n + 1)
      = nextDcpFault s.env :: pushAnswers (flush g payload s).env n := by
  simp only [pushAnswers, List.range_succ_eq_map, List.map_cons, List.map_map]
  refine congrArg₂ List.cons (by simp [nextDcpFault, nextAnswer]) (List.map_congr_left fun i _ => ?_)
  simp [Function.comp, Nat.add_assoc, Nat.add_comm 1 i]

theorem gtErase_filter_notMem (gt : GroupTable) (g : Nat) (ids : List Nat) :
    (gtErase gt g).filter (fun x => !ids.contains x.1)
      = gt.filter fun x => !(g :: ids).contains x.1 := by
  rw [gtErase, List.filter_filter]
  exact List.filter_congr fun x _ => by
    by_cases h : x.1 = g <;> simp [h]

/-- The first of several flushes. -/
theorem afterFlushes_cons (g : Nat) (payload : Bytes) (groups : List (Nat × Bytes)) (s : State) :
    afterFlushes ((g, payload) :: groups) s = afterFlushes groups (flush g payload s) := by
  have answers := pushAnswers_succ g payload groups.length s
  have gt := gtErase_filter_notMem s.blk.gt g (groups.map Prod.fst)
  have count (f : Bool) (l : List Bool) :
      BitVec.ofNat 64 ((f :: l).count true)
        = (if f then 1#64 else 0#64) + BitVec.ofNat 64 (l.count true) := by
    cases f <;> simp [BitVec.ofNat_add, BitVec.add_comm]
  have bytes : BitVec.ofNat 64 ((groups.length + 1) * s.blk.cfg.groupSize)
      = BitVec.ofNat 64 s.blk.cfg.groupSize
        + BitVec.ofNat 64 (groups.length * s.blk.cfg.groupSize) := by
    rw [← BitVec.ofNat_add, Nat.add_one_mul, Nat.add_comm]
  have flushed : BitVec.ofNat 64 (groups.length + 1) = 1#64 + BitVec.ofNat 64 groups.length := by
    rw [← BitVec.ofNat_add, Nat.add_comm]
  simp only [afterFlushes, List.length_cons, answers, List.any_cons, id, count, bytes, flushed,
    List.map_cons, ← gt, List.zipWith_cons_cons, flush_cfg]
  simp [flush, recordFlush, recordPush, dcpPush, Bool.or_assoc, BitVec.add_assoc]

/-- Settles O32: one flush is the first of no more. -/
theorem flushPushesAndRecords : Obligations.FlushPushesAndRecords := by
  intro g payload s
  rw [afterFlushes_cons, afterFlushes_nil]

/-! ### A run of RESOLVED groups -/

theorem numbered_cons (first : Nat) (payload : Bytes) (rest : List Bytes) :
    numbered first (payload :: rest) = (first, payload) :: numbered (first + 1) rest := by
  simp [numbered, List.range_succ_eq_map, Function.comp_def, Nat.add_assoc, Nat.add_comm 1]

theorem afterRun_nil (s : State) : afterRun [] s = s := by
  simp [afterRun, numbered, afterFlushes_nil]

theorem afterRun_cons (payload : Bytes) (rest : List Bytes) (s : State) :
    afterRun (payload :: rest) s
      = afterRun rest (advanceCursor (flush s.blk.nextGroup payload s)) := by
  unfold afterRun
  rw [numbered_cons, afterFlushes_cons]
  simp [afterFlushes, advanceCursor, Nat.add_assoc, Nat.add_comm 1]

theorem isResolvedRun_nil {gt : GroupTable} {first : Nat} (h : IsResolvedRun gt first []) :
    resolvedPayload gt first = none := h.2

/-- The first of a run is RESOLVED, and the rest is a run once it has been taken out. -/
theorem isResolvedRun_cons {gt : GroupTable} {first : Nat} {payload : Bytes} {rest : List Bytes}
    (h : IsResolvedRun gt first (payload :: rest)) :
    resolvedPayload gt first = some payload ∧ IsResolvedRun (gtErase gt first) (first + 1) rest := by
  obtain ⟨resolved, stop⟩ := h
  have other : ∀ n, resolvedPayload (gtErase gt first) (first + 1 + n)
      = resolvedPayload gt (first + (n + 1)) := fun n => by
    rw [resolvedPayload, gtGet_gtErase_other _ _ _ (by omega), Nat.add_right_comm]
    rfl
  refine ⟨resolved ⟨0, Nat.succ_pos _⟩, fun n => ?_, ?_⟩
  · rw [other]
    exact resolved n.succ
  · rw [other]
    exact stop

/-- The loop flushes the run at the cursor: every turn takes an entry out of the table, so it has turns
enough, and no id of the table is past the last group. -/
theorem flushLoop_eq_afterRun (fuel n : Nat) (s : State) (run : List Bytes)
    (enough : s.blk.gt.length ≤ fuel) (ids : ∀ x ∈ s.blk.gt, x.1 ≤ 65535)
    (h : IsResolvedRun s.blk.gt s.blk.nextGroup run) :
    flushLoop fuel n s = (afterRun run s, n + run.length) := by
  induction run generalizing fuel n s with
  | nil => rw [flushLoop_stop _ _ _ (isResolvedRun_nil h), afterRun_nil]; rfl
  | cons payload rest ih =>
    obtain ⟨first, after⟩ := isResolvedRun_cons h
    have found := resolvedPayload_eq_some.1 first
    have shorter := length_gtErase_lt found
    cases fuel with
    | zero => omega
    | succ fuel =>
      rw [flushLoop_turn _ _ _ _ (ids _ (mem_of_gtGet found)) first, afterRun_cons,
        ih fuel (n + 1) (advanceCursor (flush s.blk.nextGroup payload s))
          (Nat.le_of_lt_succ (lt_of_lt_of_le shorter enough))
          (fun x hx => ids x (mem_gtErase.1 hx).1) after, List.length_cons, Nat.add_right_comm,
        Nat.add_assoc]

/-- Settles O33: the loop has as many turns as the table has entries. -/
theorem flushLoopFlushesTheRun : Obligations.FlushLoopFlushesTheRun := by
  intro s run _ ids h
  rw [flushAll, flushLoop_eq_afterRun _ _ _ _ (Nat.le_refl _) ids h, Nat.zero_add]

end Sys2Proof.Machine
end

/-! ## A stored chunk, and what it touches -/

section
namespace Sys2Proof.Machine

/-- The field `FLUSHED_N` holds the count of flushes whole (R106). -/
theorem toNat_flushedField {n : Nat} (fits : n < 2 ^ 24) :
    (BitVec.ofNat 64 n <<< 40).toNat = n <<< 40 := by
  have short : n < 2 ^ 64 := fits.trans (by decide)
  have below : n <<< 40 < 2 ^ 64 := by
    rw [Nat.shiftLeft_eq]
    omega
  rw [BitVec.toNat_shiftLeft, BitVec.toNat_ofNat, Nat.mod_eq_of_lt short, Nat.mod_eq_of_lt below]

/-- `VALUE` of an `ACCEPT` that stored its chunk (R106): its flags, the count of flushes above them. -/
theorem acceptValue_stored_eq_or {n : Nat} (fits : n < 2 ^ 24) (attempted now : Bool) :
    acceptValue .stored attempted now n
      = (BitVec.ofBool now ++ BitVec.ofBool attempted ++ 0#8).zeroExtend 64
        ||| (BitVec.ofNat 64 n <<< 40) := by
  apply BitVec.eq_of_toNat_eq
  rw [BitVec.toNat_or, toNat_flushedField fits, Nat.or_comm]
  cases attempted <;> cases now <;>
    simp only [acceptValue, BitVec.toNat_append, BitVec.toNat_ofNat, Nat.mod_eq_of_lt fits,
      Nat.shiftLeft_or_distrib, ← Nat.shiftLeft_add, Nat.or_assoc] <;>
    rfl

/-- The response of an `ACCEPT` that stored its chunk, for a flush of this run. -/
theorem acceptFlush_eq_answered {s : State} {run : List Bytes} (attempted now : Bool) (op : Byte)
    (few : run.length < 2 ^ 24) (flushes : flushAll s = (afterRun run s, run.length)) :
    acceptFlush op attempted now s
      = answered (okResponse op ((BitVec.ofBool now ++ BitVec.ofBool attempted ++ 0#8).zeroExtend 64
          ||| (BitVec.ofNat 64 run.length <<< 40)) []) (afterRun run s) := by
  rw [acceptFlush, flushes, respond_eq_answered _ _ _ _ (by decide), acceptValue_stored_eq_or few]

/-- A run of RESOLVED groups is no longer than there are ids. -/
theorem length_le_of_isResolvedRun {gt : GroupTable} {first : Nat} {run : List Bytes}
    (h : IsResolvedRun gt first run) (ids : ∀ x ∈ gt, x.1 ≤ 65535) : run.length ≤ 65536 := by
  obtain empty | pos := Nat.eq_zero_or_pos run.length
  · omega
  · have last := ids _ (mem_of_gtGet (resolvedPayload_eq_some.1
      (h.1 ⟨run.length - 1, Nat.sub_lt pos Nat.one_pos⟩)))
    simp only at last
    omega

/-- Settles O31: the three ways of `acceptStored`, and the run that the loop flushes after each. -/
theorem acceptStoresAttemptsFlushes : Obligations.AcceptStoresAttemptsFlushes := by
  intro s g sid data held entry flags stored run inv ok live whole opened holds fresh room outcome
  rintro rfl h
  have ids : ∀ x ∈ gtSet s.blk.gt g.toNat entry, x.1 ≤ 65535 := fun x hx => by
    obtain rfl | mem := mem_gtSet hx
    · exact Nat.le_of_lt_succ g.isLt
    · have := (inv.keys_between x mem).2
      have := inv.high_le
      omega
  have few := Nat.lt_of_le_of_lt (length_le_of_isResolvedRun h ids) (by decide : 65536 < 2 ^ 24)
  have flushes := flushLoopFlushesTheRun (putEntry g.toNat entry (raiseHigh g.toNat s)) run
    (gtWf_gtSet _ _ inv.table_canonical) ids h
  rw [exec_accept_eq false g sid ok whole,
    acceptChunk_stored live opened ⟨holds, notMem_sids fresh, room, whole⟩]
  have length : (held ++ [(sid, data)]).length = held.length + 1 := List.length_append
  obtain ⟨below, rfl, rfl⟩ | ⟨enough, failed, rfl, rfl⟩ | ⟨enough, payload, rebuilt, rfl, rfl⟩ :=
    outcome
  · rw [acceptStored_short (s := raiseHigh _ s) (length ▸ below),
      acceptFlush_eq_answered _ _ _ few flushes]
    rfl
  · rw [acceptStored_failed (s := raiseHigh _ s) (length ▸ enough) failed,
      acceptFlush_eq_answered _ _ _ few flushes]
    rfl
  · rw [acceptStored_resolved (s := raiseHigh _ s) (length ▸ enough) rebuilt,
      acceptFlush_eq_answered _ _ _ few flushes]
    rfl

/-- An effect of `ACCEPT` leaves the entries of other groups alone, but for those that it flushes. -/
theorem Effect.accept_gtGet {s u : State} {e : Bool} {g sid : Id16} {data rdata : Bytes}
    (effect : Effect s (.accept e g sid data) rdata u) {h : Nat} (other : h ≠ g.toNat)
    (out : h < s.blk.nextGroup ∨ u.blk.nextGroup ≤ h) : gtGet u.blk.gt h = gtGet s.blk.gt h := by
  cases effect with
  | quiet | reached | overflowed => rfl
  | openedFull => exact gtGet_gtSet_other _ _ _ _ other
  | stored _ _ _ _ held =>
    have frame := congrArg Block.nextGroup (flushAll_frame (putEntry g.toNat
      (entryOf s.blk.cfg (held ++ [(sid, data)])) (raiseHigh g.toNat s))).1
    rw [frame] at out
    exact (gtGet_flushAll _ h out).trans (gtGet_gtSet_other _ _ _ _ other)

/-- Settles O35, by the effects of `ACCEPT`; an exception leaves the table alone. -/
theorem acceptTouchesOneGroup : Obligations.AcceptTouchesOneGroup := by
  intro s e g sid data
  obtain ⟨t, ht, ends⟩ := exec_ends (.accept e g sid data) s
  refine ⟨t, ht, fun h other out => ?_⟩
  cases ends with
  | raised x => rfl
  | answered value effect => exact effect.accept_gtGet other out

end Sys2Proof.Machine
end

/-! ## `FINALIZE` -/

section
namespace Sys2Proof.Machine

/-! ### The words of the response -/

/-- `VALUE` of `FINALIZE`, as a sum of its fields (R106). -/
theorem finalizeValue_eq_or {ranges flushed : Nat} (fewRanges : ranges < 2 ^ 32)
    (fewFlushed : flushed < 2 ^ 24) (x : Summary) :
    finalizeValue ranges x flushed
      = BitVec.ofNat 64 ranges ||| ((summaryCode x).zeroExtend 64 <<< 32)
        ||| (BitVec.ofNat 64 flushed <<< 40) := by
  apply BitVec.eq_of_toNat_eq
  rw [BitVec.toNat_or, BitVec.toNat_or, toNat_flushedField fewFlushed, BitVec.toNat_ofNat,
    Nat.mod_eq_of_lt (fewRanges.trans (by decide)), Nat.or_comm, Nat.or_comm ranges, ← Nat.or_assoc]
  cases x <;>
    simp only [finalizeValue, BitVec.toNat_append, BitVec.toNat_ofNat, Nat.mod_eq_of_lt fewFlushed,
      Nat.mod_eq_of_lt fewRanges, Nat.shiftLeft_or_distrib, ← Nat.shiftLeft_add] <;>
    refine congrArg (· ||| ranges) ?_ <;>
    simp [summaryCode]

theorem littleEndian64_eq_leBytes (n : Nat) : littleEndian64 n = leBytes (BitVec.ofNat 64 n) := by
  refine List.map_congr_left fun i hi => BitVec.eq_of_getLsbD_eq fun j hj => ?_
  have inside : 8 * i + j < 64 := by
    have := List.mem_range.1 hi
    omega
  simp only [BitVec.getLsbD_extractLsb', BitVec.getLsbD_ofNat, Nat.testBit_shiftRight, hj, inside,
    decide_true, Bool.true_and]

theorem lossRecords_eq_flatMap (groupSize : Nat) (lost : List Nat) :
    lossRecords groupSize lost = lost.flatMap fun g =>
      leBytes (BitVec.ofNat 64 (g * groupSize)) ++ leBytes (BitVec.ofNat 64 ((g + 1) * groupSize)) := by
  simp only [lossRecords, rangeRecord, littleEndian64_eq_leBytes]

theorem exec_finalize_eq {s : State} (ok : s.blk.cfgOk = true) :
    exec (.finalize []) s = .next (finalizeSession 0x31#8 s) :=
  congrArg Host.Outcome.next (guarded_pass ok rfl)

/-- Settles O37: nothing but the stored summary is answered. -/
theorem finalizeAgainChangesNothing : Obligations.FinalizeAgainChangesNothing := by
  intro s ok fin
  refine ⟨(summaryCode s.blk.summary).toNat, ?_, ?_⟩
  · rw [exec_finalize_eq ok, finalizeSession, fin]
    simp only
    rw [respond_eq_answered _ _ _ _ (by decide), finalizeValue_eq_or (by decide) (by decide)]
    cases s.blk.summary <;> rfl
  · cases s.blk.summary <;> decide

/-! ### The walk -/

/-- The RESOLVED ones of these groups, with their payloads. -/
def resolvedAmong (gt : GroupTable) (ids : List Nat) : List (Nat × Bytes) :=
  ids.filterMap fun g => (resolvedPayload gt g).map fun payload => (g, payload)

/-- The others of these groups. -/
def unresolvedAmong (gt : GroupTable) (ids : List Nat) : List Nat :=
  ids.filter fun g => (resolvedPayload gt g).isNone

theorem resolvedAmong_gtErase {gt : GroupTable} {g : Nat} {ids : List Nat} (out : g ∉ ids) :
    resolvedAmong (gtErase gt g) ids = resolvedAmong gt ids :=
  List.filterMap_congr fun h mem => by
    rw [resolvedPayload, gtGet_gtErase_other _ _ _ (ne_of_mem_of_not_mem mem out)]
    rfl

theorem unresolvedAmong_gtErase {gt : GroupTable} {g : Nat} {ids : List Nat} (out : g ∉ ids) :
    unresolvedAmong (gtErase gt g) ids = unresolvedAmong gt ids :=
  List.filter_congr fun h mem => by
    rw [resolvedPayload, gtGet_gtErase_other _ _ _ (ne_of_mem_of_not_mem mem out)]
    rfl

/-- `s` with another group table. -/
def withTable (gt : GroupTable) (s : State) : State := { s with blk := { s.blk with gt := gt } }

theorem abandonEntry_gt (g : Nat) (s : State) :
    (abandonEntry g s).blk.gt = gtErase s.blk.gt g := rfl

/-- The walk over these groups flushes the RESOLVED ones, reports the others and takes all of them
out of the table (R225, R226). -/
theorem foldl_finalVisit (ids : List Nat) (distinct : ids.Nodup) (t : State) (n : Nat)
    (lost : List Nat) :
    ids.foldl finalVisit ⟨t, n, lost⟩
      = ⟨withTable (t.blk.gt.filter fun x => !ids.contains x.1)
            (afterFlushes (resolvedAmong t.blk.gt ids) t),
          n + (resolvedAmong t.blk.gt ids).length, lost ++ unresolvedAmong t.blk.gt ids⟩ := by
  induction ids generalizing t n lost with
  | nil => simp [resolvedAmong, unresolvedAmong, afterFlushes_nil, withTable]
  | cons g rest ih =>
    obtain ⟨out, distinct⟩ := List.nodup_cons.1 distinct
    rw [List.foldl_cons]
    cases hp : resolvedPayload t.blk.gt g with
    | some payload =>
      have held : resolvedAmong t.blk.gt (g :: rest) = (g, payload) :: resolvedAmong t.blk.gt rest := by
        simp [resolvedAmong, hp]
      have others : unresolvedAmong t.blk.gt (g :: rest) = unresolvedAmong t.blk.gt rest := by
        simp [unresolvedAmong, hp]
      rw [finalVisit_of_some hp, ih distinct, flush_gt, resolvedAmong_gtErase out,
        unresolvedAmong_gtErase out, gtErase_filter_notMem, held, others, afterFlushes_cons,
        List.length_cons, Nat.add_assoc, Nat.add_comm 1]
    | none =>
      have held : resolvedAmong t.blk.gt (g :: rest) = resolvedAmong t.blk.gt rest := by
        simp [resolvedAmong, hp]
      have others : unresolvedAmong t.blk.gt (g :: rest) = g :: unresolvedAmong t.blk.gt rest := by
        simp [unresolvedAmong, hp]
      rw [finalVisit_of_none hp, ih distinct, abandonEntry_gt, resolvedAmong_gtErase out,
        unresolvedAmong_gtErase out, gtErase_filter_notMem, held, others, List.append_assoc]
      rfl

/-- The whole walk: all ids of the table lie between the cursor and `HIGH`, so it empties the table. -/
theorem finalWalk_eq {s : State} (keys : ∀ x ∈ s.blk.gt, s.blk.nextGroup ≤ x.1 ∧ x.1 < s.blk.high) :
    finalWalk s = ⟨withTable [] (afterFlushes (heldGroups s.blk) s), (heldGroups s.blk).length,
      lostGroups s.blk⟩ := by
  have empty : (s.blk.gt.filter fun x =>
      !(List.range' s.blk.nextGroup (s.blk.high - s.blk.nextGroup)).contains x.1) = [] := by
    refine List.filter_eq_nil_iff.2 fun x hx => ?_
    obtain ⟨lo, hi⟩ := keys x hx
    have mem : x.1 ∈ List.range' s.blk.nextGroup (s.blk.high - s.blk.nextGroup) :=
      List.mem_range'_1.2 (by omega)
    simp [mem]
  rw [finalWalk, foldl_finalVisit _ List.nodup_range', empty, Nat.zero_add, List.nil_append]
  rfl

/-! ### The end of the session -/

theorem length_heldGroups_le (b : Block) : (heldGroups b).length ≤ b.high - b.nextGroup :=
  (List.length_filterMap_le _ _).trans_eq List.length_range'

theorem length_lostGroups_le (b : Block) : (lostGroups b).length ≤ b.high - b.nextGroup :=
  (List.length_filter_le _ _).trans_eq List.length_range'

/-- The counter of flushed groups does not wrap (R227). -/
theorem flushed_pos_iff {cnt : Word64} {n : Nat} (fits : cnt.toNat + n < 2 ^ 64) :
    0#64 < cnt + BitVec.ofNat 64 n ↔ 0 < cnt.toNat + n := by
  rw [BitVec.lt_def, BitVec.toNat_add, BitVec.toNat_ofNat, BitVec.toNat_ofNat, Nat.zero_mod,
    Nat.add_mod_mod, Nat.mod_eq_of_lt fits]

/-- `FINALIZE` in the LIVE phase (R225), with the summary of R227. -/
theorem exec_finalize_live {s : State} (inv : BlockInv s.blk) (ok : s.blk.cfgOk = true)
    (live : s.blk.phase = .live) {summary : Summary}
    (sum : summary = summaryOf (lostGroups s.blk)
      (s.blk.cntGroupsFlushed + BitVec.ofNat 64 (heldGroups s.blk).length)) :
    exec (.finalize []) s
      = .next (answered
          (okResponse 0x31#8
            (BitVec.ofNat 64 (lostGroups s.blk).length ||| ((summaryCode summary).zeroExtend 64 <<< 32)
              ||| (BitVec.ofNat 64 (heldGroups s.blk).length <<< 40))
            (lossRecords s.blk.cfg.groupSize (lostGroups s.blk)))
          { afterFlushes (heldGroups s.blk) s with
            blk := { (afterFlushes (heldGroups s.blk) s).blk with
              gt := []
              nextGroup := s.blk.high
              phase := .finalized
              summary := summary } }) := by
  have high := inv.high_le
  have held := length_heldGroups_le s.blk
  have lost := length_lostGroups_le s.blk
  have fewLost : (lostGroups s.blk).length < 2 ^ 32 := by omega
  have fewHeld : (heldGroups s.blk).length < 2 ^ 24 := by omega
  have short : (lossRecords s.blk.cfg.groupSize (lostGroups s.blk)).length < 2 ^ 32 := by
    rw [length_lossRecords]
    omega
  subst sum
  rw [exec_finalize_eq ok, finalizeSession, live]
  simp only
  rw [finalWalk_eq inv.keys_between, respond_eq_answered _ _ _ _ short,
    finalizeValue_eq_or fewLost fewHeld]
  rfl

/-- Settles O36: the walk flushes the RESOLVED groups and reports the others. -/
theorem finalizeFlushesAndReports : Obligations.FinalizeFlushesAndReports := by
  rintro s inv ok live _ _ summary code rfl rfl outcome
  have few : s.blk.cntGroupsFlushed.toNat + (heldGroups s.blk).length < 2 ^ 64 := by
    have := inv.flushed_le_high
    have := inv.high_le
    have := length_heldGroups_le s.blk
    omega
  have sum : summary = summaryOf (lostGroups s.blk)
        (s.blk.cntGroupsFlushed + BitVec.ofNat 64 (heldGroups s.blk).length)
      ∧ code = (summaryCode summary).zeroExtend 64 := by
    simp only [summaryOf, flushed_pos_iff few]
    obtain ⟨none, rfl, rfl⟩ | ⟨some, flushed, rfl, rfl⟩ | ⟨some, never, rfl, rfl⟩ := outcome
    · exact ⟨(if_pos none).symm, rfl⟩
    · exact ⟨by rw [if_neg some, if_pos flushed], rfl⟩
    · exact ⟨by rw [if_neg some, if_neg never.not_gt], rfl⟩
  obtain ⟨sum, rfl⟩ := sum
  rw [exec_finalize_live inv ok live sum, lossRecords_eq_flatMap]
  rfl

end Sys2Proof.Machine
end

/-! ## Rows and valid symbols -/

section
namespace Sys2Proof.Machine

/-! ### Rows -/

theorem rowOf_source {k s : Nat} (source : s < k) : rowOf k s = 2 ^ s := if_pos source

theorem rowOf_repair {k s : Nat} (repair : k ≤ s) : rowOf k s = (s - k) % (2 ^ k - 1) + 1 :=
  if_neg (Nat.not_lt.2 repair)

theorem rowOf_ne_zero (k s : Nat) : rowOf k s ≠ 0 := by
  obtain source | repair := Nat.lt_or_ge s k
  · rw [rowOf_source source]
    positivity
  · rw [rowOf_repair repair]
    exact Nat.succ_ne_zero _

theorem rowOf_lt {k : Nat} (pos : 1 ≤ k) (s : Nat) : rowOf k s < 2 ^ k := by
  obtain source | repair := Nat.lt_or_ge s k
  · rw [rowOf_source source]
    exact Nat.pow_lt_pow_right (by decide) source
  · have two : 2 ^ 1 ≤ 2 ^ k := Nat.pow_le_pow_right (by decide) pos
    have := Nat.mod_lt (s - k) (show 2 ^ k - 1 > 0 by omega)
    rw [rowOf_repair repair]
    omega

/-- Settles O54: a source symbol has a power of 2, a repair symbol a number from 1 to 2^K - 1. -/
theorem rowsAreNonZeroVectors : Obligations.RowsAreNonZeroVectors := by
  refine fun k s pos => ⟨rowOf_ne_zero k s, rowOf_lt pos s, fun source i => ?_, fun repair i => ?_,
    fun wide repair id => ?_⟩
  · rw [rowOf_source source, Nat.testBit_two_pow]
    exact decide_eq_decide.2 eq_comm
  · rw [rowOf_repair repair]
  · have wide : 2 ^ 17 ≤ 2 ^ k := Nat.pow_le_pow_right (by decide) wide
    rw [rowOf_repair repair, Nat.mod_eq_of_lt (by omega)]

/-! ### The `xor` of the selected bytes -/

/-- The `xor` of the bytes i < n whose bit in the mask is 1, the bytes of one position of n chunks
(R203). -/
def selectedXor (n mask : Nat) (byte : Nat → Byte) : Byte :=
  (List.range n).foldr (fun i acc => (if mask.testBit i then byte i else 0#8) ^^^ acc) 0#8

theorem isSymbolOf_iff {k c sid : Nat} {sources : List Bytes} {chunk : Bytes} :
    IsSymbolOf k c sources sid chunk
      ↔ chunk.length = c ∧ ∀ pos, pos < c →
          chunk.getD pos 0#8 = selectedXor k (rowOf k sid) fun i => (sources.getD i []).getD pos 0#8 :=
  Iff.rfl

theorem foldr_xor (f : Nat → Byte) (l : List Nat) (init : Byte) :
    l.foldr (fun i acc => f i ^^^ acc) init = l.foldr (fun i acc => f i ^^^ acc) 0#8 ^^^ init := by
  induction l with
  | nil => simp
  | cons i rest ih => rw [List.foldr_cons, List.foldr_cons, ih, BitVec.xor_assoc]

theorem selectedXor_succ (n mask : Nat) (byte : Nat → Byte) :
    selectedXor (n + 1) mask byte
      = selectedXor n mask byte ^^^ if mask.testBit n then byte n else 0#8 := by
  rw [selectedXor, List.range_succ, List.foldr_append, foldr_xor]
  simp [selectedXor]

theorem selectedXor_congr {n mask : Nat} {byte other : Nat → Byte} (same : ∀ i < n, byte i = other i) :
    selectedXor n mask byte = selectedXor n mask other := by
  induction n with
  | zero => rfl
  | succ n ih =>
    rw [selectedXor_succ, selectedXor_succ, ih fun i lt => same i (Nat.lt_succ_of_lt lt),
      same n (Nat.lt_succ_self n)]

/-- A mask with one bit selects one byte. -/
theorem selectedXor_two_pow (n s : Nat) (byte : Nat → Byte) :
    selectedXor n (2 ^ s) byte = if s < n then byte s else 0#8 := by
  induction n with
  | zero => rfl
  | succ n ih =>
    rw [selectedXor_succ, ih, Nat.testBit_two_pow]
    obtain lt | rfl | gt := Nat.lt_trichotomy s n
    · simp [lt, lt.ne, Nat.lt_succ_of_lt lt]
    · simp
    · simp [gt.ne', Nat.not_lt.2 gt.le, Nat.not_lt.2 (Nat.succ_le_of_lt gt)]

/-! ### Chunks, byte by byte -/

theorem bytes_ext {c : Nat} {u v : Bytes} (hu : u.length = c) (hv : v.length = c)
    (same : ∀ pos < c, u.getD pos 0#8 = v.getD pos 0#8) : u = v := by
  refine List.ext_getElem (hu.trans hv.symm) fun pos inU inV => ?_
  have := same pos (hu ▸ inU)
  rwa [List.getD_eq_getElem _ _ inU, List.getD_eq_getElem _ _ inV] at this

/-- No carry between positions (R231). -/
theorem getD_xorBytes {u v : Bytes} (same : u.length = v.length) (pos : Nat) :
    (xorBytes u v).getD pos 0#8 = u.getD pos 0#8 ^^^ v.getD pos 0#8 := by
  obtain inside | outside := Nat.lt_or_ge pos u.length
  · have inV := same ▸ inside
    rw [List.getD_eq_getElem _ _ (by simpa [← same] using inside), List.getD_eq_getElem _ _ inside,
      List.getD_eq_getElem _ _ inV]
    simp [xorBytes]
  · rw [List.getD_eq_default _ _ (by simpa [← same] using outside), List.getD_eq_default _ _ outside,
      List.getD_eq_default _ _ (same ▸ outside)]
    rfl

theorem combine_nil (c mask : Nat) : combine c mask [] = zeros c := rfl

theorem combine_snoc (c mask : Nat) (chunks : List Bytes) (x : Bytes) :
    combine c mask (chunks ++ [x])
      = if mask.testBit chunks.length then xorBytes (combine c mask chunks) x
        else combine c mask chunks := by
  simp only [combine, List.zipIdx_append, List.filter_append, List.foldl_append]
  cases h : mask.testBit chunks.length <;> simp [h]

/-- The bytes of a combination of chunks of C bytes. -/
theorem getD_combine {c : Nat} (mask : Nat) {chunks : List Bytes} (whole : ∀ x ∈ chunks, x.length = c)
    (pos : Nat) :
    (combine c mask chunks).getD pos 0#8
      = selectedXor chunks.length mask fun i => (chunks.getD i []).getD pos 0#8 := by
  induction chunks using List.reverseRecOn with
  | nil => simp [combine_nil, zeros, selectedXor]
  | append_singleton chunks x ih =>
    have before : ∀ y ∈ chunks, y.length = c := fun y hy => whole y (List.mem_append_left _ hy)
    have last : x.length = c := whole x (by simp)
    have earlier := selectedXor_congr (n := chunks.length) (mask := mask)
      (byte := fun i => ((chunks ++ [x]).getD i []).getD pos 0#8)
      (other := fun i => (chunks.getD i []).getD pos 0#8)
      fun i lt => by simp only [List.getD_append _ _ _ _ lt]
    rw [List.length_append, List.length_singleton, selectedXor_succ, earlier, ← ih before, combine_snoc]
    cases mask.testBit chunks.length with
    | false => simp
    | true =>
      have added := getD_xorBytes ((length_combine c mask chunks before).trans last.symm) pos
      simpa using added

theorem IsSource.getD_mem {k c : Nat} {sources : List Bytes} (h : IsSource k c sources)
    {i : Nat} (lt : i < k) : sources.getD i [] ∈ sources := by
  rw [List.getD_eq_getElem _ _ (h.1.symm ▸ lt)]
  exact List.getElem_mem _

/-- Settles O55: the combination that a row selects, and the unit vectors among the rows. -/
theorem validSymbolIsXorOfSources : Obligations.ValidSymbolIsXorOfSources := by
  intro k c s sources _ h
  have length := length_combine c (rowOf k s) sources h.2
  have bytes (pos : Nat) : (validSymbol k c sources s).getD pos 0#8
      = selectedXor k (rowOf k s) fun i => (sources.getD i []).getD pos 0#8 := by
    rw [validSymbol, getD_combine _ h.2, h.1]
  refine ⟨isSymbolOf_iff.2 ⟨length, fun pos _ => bytes pos⟩, fun source => ?_⟩
  refine bytes_ext length (h.2 _ (h.getD_mem source)) fun pos _ => ?_
  rw [bytes, rowOf_source source, selectedXor_two_pow, if_pos source]

end Sys2Proof.Machine
end

/-! ## Span and rank over GF(2) -/

section
namespace Sys2Proof.Machine

/-! ### Bit vectors as vectors over GF(2) -/

/-- A bit as an element of GF(2). -/
def gfBit (b : Bool) : ZMod 2 := if b then 1 else 0

theorem gfBit_xor (a b : Bool) : gfBit (a ^^ b) = gfBit a + gfBit b := by
  cases a <;> cases b <;> decide

theorem gf2_cases (a : ZMod 2) : a = 0 ∨ a = 1 := by
  revert a
  decide

theorem gfBit_injective : Function.Injective gfBit := by decide

/-- A number as the vector of its bits. -/
def bitVector (n : Nat) : ℕ → ZMod 2 := fun i => gfBit (n.testBit i)

theorem bitVector_zero : bitVector 0 = 0 := by
  funext i
  simp [bitVector, gfBit]

theorem bitVector_xor (a b : Nat) : bitVector (a ^^^ b) = bitVector a + bitVector b := by
  funext i
  simp [bitVector, gfBit_xor]

theorem bitVector_injective : Function.Injective bitVector := fun _ _ h =>
  Nat.eq_of_testBit_eq fun i => gfBit_injective (congrFun h i)

/-! ### Span -/

/-- The span of bit vectors (R204). -/
def rowSpan (R : List Nat) : Submodule (ZMod 2) (ℕ → ZMod 2) :=
  Submodule.span (ZMod 2) (bitVector '' {r | r ∈ R})

theorem rowSpan_mono {R S : List Nat} (h : ∀ r ∈ R, bitVector r ∈ rowSpan S) : rowSpan R ≤ rowSpan S :=
  Submodule.span_le.2 fun _ ⟨r, hr, e⟩ => e ▸ h r hr

theorem mem_rowSpan {R : List Nat} {r : Nat} (h : r ∈ R) : bitVector r ∈ rowSpan R :=
  Submodule.subset_span ⟨r, h, rfl⟩

theorem rowSpan_le_of_subset {R S : List Nat} (h : R ⊆ S) : rowSpan R ≤ rowSpan S :=
  rowSpan_mono fun _ hr => mem_rowSpan (h hr)

theorem inSpan_nil {v : Nat} : InSpan v [] ↔ v = 0 := by
  simp [InSpan, xorAll, eq_comm]

/-- A subset of `r :: R` has `r` or not. -/
theorem inSpan_cons {v r : Nat} {R : List Nat} :
    InSpan v (r :: R) ↔ InSpan v R ∨ InSpan (v ^^^ r) R := by
  constructor
  · rintro ⟨sub, h, rfl⟩
    cases h with
    | cons _ h => exact .inl ⟨_, h, rfl⟩
    | cons_cons _ h =>
      exact .inr ⟨_, h, by rw [xorAll, xorAll, List.foldr_cons, Nat.xor_comm, Nat.xor_xor_cancel_left]⟩
  · rintro (⟨sub, h, rfl⟩ | ⟨sub, h, e⟩)
    · exact ⟨sub, h.cons r, rfl⟩
    · refine ⟨r :: sub, h.cons_cons r, ?_⟩
      rw [xorAll, List.foldr_cons, ← xorAll, e, Nat.xor_comm, Nat.xor_assoc, Nat.xor_self,
        Nat.xor_zero]

/-- A bit that no row has is in no vector of their span. -/
theorem testBit_of_inSpan {R : List Nat} {i : Nat} (clear : ∀ r ∈ R, r.testBit i = false) {v : Nat}
    (h : InSpan v R) : v.testBit i = false := by
  induction R generalizing v with
  | nil => simp [inSpan_nil.1 h]
  | cons r R ih =>
    obtain ⟨first, others⟩ := List.forall_mem_cons.1 clear
    obtain h | h := inSpan_cons.1 h
    · exact ih others h
    · simpa [first] using ih others h

/-- The span by subsets is the span of the vectors. -/
theorem inSpan_iff {v : Nat} {R : List Nat} : InSpan v R ↔ bitVector v ∈ rowSpan R := by
  induction R generalizing v with
  | nil =>
    simp only [inSpan_nil, rowSpan, List.not_mem_nil, Set.ofPred_false, Set.image_empty,
      Submodule.span_empty, Submodule.mem_bot]
    exact ⟨fun e => e ▸ bitVector_zero, fun e => bitVector_injective (e.trans bitVector_zero.symm)⟩
  | cons r R ih =>
    have split : rowSpan (r :: R)
        = Submodule.span (ZMod 2) (insert (bitVector r) (bitVector '' {r | r ∈ R})) := by
      rw [rowSpan, ← Set.image_insert_eq]
      congr 2
      ext x
      simp
    rw [inSpan_cons, ih, ih, bitVector_xor, split, Submodule.mem_span_insert]
    constructor
    · rintro (h | h)
      · exact ⟨0, _, h, by simp⟩
      · exact ⟨1, _, h, by rw [one_smul, add_comm, add_assoc, CharTwo.add_self_eq_zero, add_zero]⟩
    · rintro ⟨a, z, hz, e⟩
      obtain rfl | rfl := gf2_cases a
      · exact .inl (by rwa [e, zero_smul, zero_add])
      · refine .inr ?_
        rwa [e, one_smul, add_comm, ← add_assoc, CharTwo.add_self_eq_zero, zero_add]

theorem InSpan.of_mem {v : Nat} {R : List Nat} (h : v ∈ R) : InSpan v R := inSpan_iff.2 (mem_rowSpan h)

/-! ### Independence -/

/-- The rows but one, where no row occurs twice. -/
theorem mem_eraseIdx_iff_ne {R : List Nat} (distinct : R.Nodup) (n : Fin R.length) (r : Nat) :
    r ∈ R.eraseIdx n.val ↔ r ∈ R ∧ r ≠ R[n] := by
  rw [← List.Nodup.erase_getElem distinct, distinct.mem_erase_iff, and_comm]
  rfl

/-- Independence by subsets is linear independence of the vectors, no row occurring twice. -/
theorem independentRows_iff {R : List Nat} :
    IndependentRows R ↔ R.Nodup ∧ LinearIndepOn (ZMod 2) bitVector {r | r ∈ R} := by
  have apart (distinct : R.Nodup) :
      IndependentRows R ↔ LinearIndepOn (ZMod 2) bitVector {r | r ∈ R} := by
    have others (n : Fin R.length) :
        InSpan R[n] (R.eraseIdx n.val)
          ↔ bitVector R[n] ∈ Submodule.span (ZMod 2) (bitVector '' ({r | r ∈ R} \ {R[n]})) := by
      rw [inSpan_iff, rowSpan]
      congr! 3
      ext r
      exact mem_eraseIdx_iff_ne distinct n r
    simp only [IndependentRows, others, linearIndepOn_iff_notMem_span]
    constructor
    · intro h r hr
      obtain ⟨n, lt, rfl⟩ := List.getElem_of_mem hr
      exact h ⟨n, lt⟩
    · exact fun h n => h _ (List.getElem_mem _)
  refine ⟨fun h => ?_, fun h => (apart h.1).2 h.2⟩
  have distinct : R.Nodup := by
    refine List.nodup_iff_injective_get.2 fun i j e => by_contra fun ne => h i (.of_mem ?_)
    exact List.mem_eraseIdx_iff_getElem.2 ⟨j, j.isLt, fun eq => ne (Fin.ext eq.symm), e.symm⟩
  exact ⟨distinct, (apart distinct).1 h⟩

theorem independentRows_nil : IndependentRows [] := fun n => n.elim0

/-- A row outside the span keeps the rows independent. -/
theorem IndependentRows.snoc {R : List Nat} (h : IndependentRows R) {r : Nat} (fresh : ¬ InSpan r R) :
    IndependentRows (R ++ [r]) := by
  obtain ⟨distinct, indep⟩ := independentRows_iff.1 h
  refine independentRows_iff.2 ⟨?_, ?_⟩
  · exact distinct.append (List.nodup_singleton r) (by simpa using fun mem => fresh (.of_mem mem))
  · have eq : {x | x ∈ R ++ [r]} = insert r {x | x ∈ R} := by
      ext x
      simp [or_comm]
    rw [eq]
    exact indep.insert fun mem => fresh (inSpan_iff.2 mem)

theorem IndependentRows.perm {R S : List Nat} (h : IndependentRows R) (perm : R.Perm S) :
    IndependentRows S := by
  obtain ⟨distinct, indep⟩ := independentRows_iff.1 h
  refine independentRows_iff.2 ⟨perm.nodup_iff.1 distinct, ?_⟩
  simpa only [perm.mem_iff] using indep

/-- Independent rows are no more than rows that span them. -/
theorem IndependentRows.length_le {R S : List Nat} (h : IndependentRows R)
    (spanned : rowSpan R ≤ rowSpan S) : R.length ≤ S.length := by
  classical
  obtain ⟨distinct, indep⟩ := independentRows_iff.1 h
  rw [← List.coe_toFinset] at indep
  have inside : Set.range (fun r : (R.toFinset : Set ℕ) => bitVector r)
      ≤ Submodule.span (ZMod 2) (S.toFinset.image bitVector : Set (ℕ → ZMod 2)) := by
    rintro _ ⟨⟨r, hr⟩, rfl⟩
    have mem := spanned (mem_rowSpan (List.mem_toFinset.1 hr))
    rwa [rowSpan, ← List.coe_toFinset, ← Finset.coe_image] at mem
  have card := linearIndependent_le_span_aux' _ indep _ inside
  calc R.length = R.toFinset.card := (List.toFinset_card_of_nodup distinct).symm
    _ ≤ (S.toFinset.image bitVector).card := by
      simpa only [Finset.coe_sort_coe, Fintype.card_coe] using card
    _ ≤ S.toFinset.card := Finset.card_image_le
    _ ≤ S.length := S.toFinset_card_le

/-- The rank is the number of independent rows that span all (R204). -/
theorem rankIs_of_subperm {R J : List Nat} (sub : J.Subperm R) (indep : IndependentRows J)
    (spans : ∀ r ∈ R, InSpan r J) : RankIs R J.length := by
  obtain ⟨J', perm, sublist⟩ := sub
  refine ⟨⟨J', sublist, indep.perm perm.symm, perm.length_eq⟩, fun other sublist indep => ?_⟩
  refine indep.length_le ((rowSpan_le_of_subset sublist.subset).trans ?_)
  exact rowSpan_mono fun r hr => inSpan_iff.1 (spans r hr)

end Sys2Proof.Machine
end

/-! ## The elimination -/

section
namespace Sys2Proof.Machine

/-! ### Equations that hold -/

/-- The sum of the rows at the positions whose bit in the mask is 1. -/
def comboSum (rows : List Nat) (mask : Nat) : ℕ → ZMod 2 :=
  ∑ u ∈ Finset.range rows.length, gfBit (mask.testBit u) • bitVector (rows.getD u 0)

/-- The row of an equation is the sum of the rows that it names (step 4 of R205). -/
structure Equation.Holds (rows : List Nat) (e : Equation) : Prop where
  fits : e.combo < 2 ^ rows.length
  sum : bitVector e.row = comboSum rows e.combo

theorem comboSum_xor (rows : List Nat) (a b : Nat) :
    comboSum rows (a ^^^ b) = comboSum rows a + comboSum rows b := by
  simp only [comboSum, Nat.testBit_xor, gfBit_xor, add_smul, Finset.sum_add_distrib]

theorem comboSum_snoc (rows : List Nat) (r mask : Nat) :
    comboSum (rows ++ [r]) mask
      = comboSum rows mask + gfBit (mask.testBit rows.length) • bitVector r := by
  have earlier : ∀ u ∈ Finset.range rows.length,
      gfBit (mask.testBit u) • bitVector ((rows ++ [r]).getD u 0)
        = gfBit (mask.testBit u) • bitVector (rows.getD u 0) := fun u hu => by
    rw [List.getD_append _ _ _ _ (Finset.mem_range.1 hu)]
  rw [comboSum, List.length_append, List.length_singleton, Finset.sum_range_succ,
    Finset.sum_congr rfl earlier, List.getD_append_right _ _ _ _ le_rfl, Nat.sub_self]
  rfl

theorem comboSum_mem_rowSpan (rows : List Nat) (mask : Nat) : comboSum rows mask ∈ rowSpan rows :=
  Submodule.sum_mem _ fun u hu => Submodule.smul_mem _ _ (mem_rowSpan (by
    rw [List.getD_eq_getElem _ _ (Finset.mem_range.1 hu)]
    exact List.getElem_mem _))

theorem Equation.Holds.add {rows : List Nat} {a b : Equation} (ha : a.Holds rows)
    (hb : b.Holds rows) : (a.add b).Holds rows where
  fits := Nat.xor_lt_two_pow ha.fits hb.fits
  sum := by rw [Equation.add, bitVector_xor, ha.sum, hb.sum, comboSum_xor]

/-- A further basis row is named by no equation so far. -/
theorem Equation.Holds.snoc {rows : List Nat} {e : Equation} (h : e.Holds rows) (r : Nat) :
    e.Holds (rows ++ [r]) where
  fits := h.fits.trans_le (Nat.pow_le_pow_right (by decide) (by simp))
  sum := by
    rw [h.sum, comboSum_snoc, Nat.testBit_lt_two_pow h.fits]
    simp [gfBit]

/-- The equation with which a pair joins the basis. -/
theorem Equation.holds_new (rows : List Nat) (r : Nat) :
    Equation.Holds (rows ++ [r]) ⟨r, 2 ^ rows.length⟩ where
  fits := Nat.pow_lt_pow_right (by decide) (by simp)
  sum := by
    have before : comboSum rows (2 ^ rows.length) = 0 := Finset.sum_eq_zero fun u hu => by
      rw [Nat.testBit_two_pow_of_ne (Finset.mem_range.1 hu).ne']
      exact zero_smul _ _
    rw [comboSum_snoc, before, Nat.testBit_two_pow_self, zero_add]
    exact (one_smul _ _).symm

theorem reduceBy_cons (q : Equation) (rest : List Equation) (e : Equation) :
    reduceBy (q :: rest) e = reduceBy rest (if e.row.testBit q.row.log2 then e.add q else e) := rfl

/-- What adding a listed equation keeps, the reduction keeps. -/
theorem reduceBy_induct (P : Equation → Prop) {eqs : List Equation} {e : Equation} (start : P e)
    (add : ∀ a, ∀ q ∈ eqs, P a → P (a.add q)) : P (reduceBy eqs e) := by
  induction eqs generalizing e with
  | nil => exact start
  | cons q rest ih =>
    rw [reduceBy_cons]
    refine ih ?_ fun a p hp => add a p (List.mem_cons_of_mem _ hp)
    split
    · exact add e q List.mem_cons_self start
    · exact start

theorem Equation.Holds.reduceBy {rows : List Nat} {eqs : List Equation} {e : Equation}
    (he : e.Holds rows) (h : ∀ q ∈ eqs, q.Holds rows) : (reduceBy eqs e).Holds rows :=
  reduceBy_induct (Holds rows) he fun _ q hq ha => ha.add (h q hq)

/-! ### Equations in reduced form -/

/-- Neither equation has the leading bit of the other. -/
def Apart (p q : Equation) : Prop :=
  p.row.testBit q.row.log2 = false ∧ q.row.testBit p.row.log2 = false

/-- Each equation has a leading bit that no other has. -/
structure Reduced (eqs : List Equation) : Prop where
  nonzero : ∀ q ∈ eqs, q.row ≠ 0
  apart : eqs.Pairwise Apart

theorem reduced_cons {q : Equation} {rest : List Equation} (h : Reduced (q :: rest)) :
    q.row ≠ 0 ∧ (∀ p ∈ rest, Apart q p) ∧ Reduced rest := by
  obtain ⟨first, others⟩ := List.forall_mem_cons.1 h.nonzero
  obtain ⟨apart, rest⟩ := List.pairwise_cons.1 h.apart
  exact ⟨first, apart, others, rest⟩

/-- No leading bit of these equations is set. -/
def ClearOf (eqs : List Equation) (v : Nat) : Prop := ∀ q ∈ eqs, v.testBit q.row.log2 = false

theorem testBit_reduceBy {eqs : List Equation} {i : Nat} (h : ∀ q ∈ eqs, q.row.testBit i = false)
    (e : Equation) : (reduceBy eqs e).row.testBit i = e.row.testBit i :=
  reduceBy_induct (fun a => a.row.testBit i = e.row.testBit i) rfl fun a q hq ha => by
    simp [Equation.add, h q hq, ha]

/-- The reduction takes out every leading bit. -/
theorem clearOf_reduceBy {eqs : List Equation} (h : Reduced eqs) (e : Equation) :
    ClearOf eqs (reduceBy eqs e).row := by
  induction eqs generalizing e with
  | nil => exact nofun
  | cons q rest ih =>
    obtain ⟨nonzero, apart, reduced⟩ := reduced_cons h
    rw [reduceBy_cons]
    refine List.forall_mem_cons.2 ⟨?_, ih reduced _⟩
    rw [testBit_reduceBy fun p hp => (apart p hp).2]
    split
    · rename_i set
      simp [Equation.add, set, Nat.testBit_log2 nonzero]
    · rename_i clear
      exact Bool.eq_false_iff.2 clear

/-- The rows of equations. -/
abbrev eqRows (eqs : List Equation) : List Nat := eqs.map Equation.row

/-- The reduction does not lead out of a span that has the equations, or into it. -/
theorem inSpan_reduceBy {eqs : List Equation} {R : List Nat} (h : rowSpan (eqRows eqs) ≤ rowSpan R)
    (e : Equation) : InSpan (reduceBy eqs e).row R ↔ InSpan e.row R := by
  refine reduceBy_induct (fun a => InSpan a.row R ↔ InSpan e.row R) Iff.rfl
    fun a q hq ha => Iff.trans ?_ ha
  rw [inSpan_iff, inSpan_iff, Equation.add, bitVector_xor]
  exact Submodule.add_mem_iff_left _ (h (mem_rowSpan (List.mem_map_of_mem hq)))

/-- In the span of reduced equations only the zero vector has none of the leading bits. -/
theorem eq_zero_of_inSpan {eqs : List Equation} (h : Reduced eqs) {v : Nat} (clear : ClearOf eqs v)
    (mem : InSpan v (eqRows eqs)) : v = 0 := by
  induction eqs generalizing v with
  | nil => exact inSpan_nil.1 mem
  | cons q rest ih =>
    obtain ⟨nonzero, apart, reduced⟩ := reduced_cons h
    obtain ⟨first, others⟩ := List.forall_mem_cons.1 clear
    obtain mem | mem := inSpan_cons.1 mem
    · exact ih reduced others mem
    · have free := testBit_of_inSpan (i := q.row.log2)
        (List.forall_mem_map.2 fun p hp => (apart p hp).2) mem
      simp [first, Nat.testBit_log2 nonzero] at free

/-! ### A further equation -/

/-- An equation with a bit of the new one is led by it still after the new one is added. -/
theorem log2_xor {a b : Nat} (ha : a ≠ 0) (hb : b ≠ 0) (set : a.testBit b.log2 = true)
    (clear : b.testBit a.log2 = false) : (a ^^^ b).log2 = a.log2 := by
  have le : b.log2 ≤ a.log2 := (Nat.le_log2 ha).2 (Nat.ge_two_pow_of_testBit set)
  have ne : b.log2 ≠ a.log2 := fun e => by simp [← e, Nat.testBit_log2 hb] at clear
  have top : (a ^^^ b).testBit a.log2 = true := by simp [Nat.testBit_log2 ha, clear]
  have small : b < 2 ^ (a.log2 + 1) := (Nat.log2_lt hb).1 (by omega)
  have nonzero : a ^^^ b ≠ 0 := fun e => by simp [e] at top
  exact (Nat.log2_eq_iff nonzero).2
    ⟨Nat.ge_two_pow_of_testBit top, Nat.xor_lt_two_pow Nat.lt_log2_self small⟩

/-- An equation with the leading bit of the new one taken out. -/
def clearedOf (e q : Equation) : Equation := if q.row.testBit e.row.log2 then q.add e else q

theorem insertEquation_eq (eqs : List Equation) (e : Equation) :
    insertEquation eqs e = eqs.map (clearedOf e) ++ [e] := rfl

theorem log2_clearedOf {e q : Equation} (he : e.row ≠ 0) (hq : q.row ≠ 0)
    (clear : e.row.testBit q.row.log2 = false) : (clearedOf e q).row.log2 = q.row.log2 := by
  unfold clearedOf
  split
  · rename_i set
    exact log2_xor hq he set clear
  · rfl

theorem testBit_clearedOf {e q : Equation} {i : Nat} (he : e.row.testBit i = false) :
    (clearedOf e q).row.testBit i = q.row.testBit i := by
  unfold clearedOf
  split
  · simp [Equation.add, he]
  · rfl

theorem clearedOf_clear {e q : Equation} (he : e.row ≠ 0) :
    (clearedOf e q).row.testBit e.row.log2 = false := by
  unfold clearedOf
  split
  · rename_i set
    simp [Equation.add, set, Nat.testBit_log2 he]
  · rename_i clear
    exact Bool.eq_false_iff.2 clear

theorem clearedOf_ne_zero {e q : Equation} (hq : q.row ≠ 0)
    (clear : e.row.testBit q.row.log2 = false) : (clearedOf e q).row ≠ 0 := fun zero => by
  have set := testBit_clearedOf (q := q) clear
  simp [zero, Nat.testBit_log2 hq] at set

theorem Reduced.insert {eqs : List Equation} (h : Reduced eqs) {e : Equation} (he : e.row ≠ 0)
    (clear : ClearOf eqs e.row) : Reduced (insertEquation eqs e) := by
  rw [insertEquation_eq]
  constructor
  · refine List.forall_mem_append.2 ⟨List.forall_mem_map.2 fun q hq => ?_, by simpa using he⟩
    exact clearedOf_ne_zero (h.nonzero q hq) (clear q hq)
  · refine List.pairwise_append.2 ⟨?_, List.pairwise_singleton _ _, ?_⟩
    · refine List.pairwise_map.2 (h.apart.imp_of_mem fun {p q} hp hq apart => ?_)
      have lead := fun x hx => log2_clearedOf he (h.nonzero x hx) (clear x hx)
      rw [Apart, lead p hp, lead q hq, testBit_clearedOf (clear q hq), testBit_clearedOf (clear p hp)]
      exact apart
    · refine List.forall_mem_map.2 fun q hq p hp => ?_
      rw [List.mem_singleton.1 hp]
      refine ⟨clearedOf_clear he, ?_⟩
      rw [log2_clearedOf he (h.nonzero q hq) (clear q hq)]
      exact clear q hq

theorem Equation.Holds.clearedOf {rows : List Nat} {e q : Equation} (he : e.Holds rows)
    (hq : q.Holds rows) : (clearedOf e q).Holds rows := by
  unfold Machine.clearedOf
  split
  · exact hq.add he
  · exact hq

theorem mem_eqRows_insertEquation (eqs : List Equation) (e : Equation) :
    e.row ∈ eqRows (insertEquation eqs e) := by
  simp [insertEquation_eq]

/-- The old equations lie in the span of the new ones. -/
theorem rowSpan_le_insertEquation (eqs : List Equation) (e : Equation) :
    rowSpan (eqRows eqs) ≤ rowSpan (eqRows (insertEquation eqs e)) := by
  have new : bitVector e.row ∈ rowSpan (eqRows (insertEquation eqs e)) :=
    mem_rowSpan (mem_eqRows_insertEquation eqs e)
  refine rowSpan_mono (List.forall_mem_map.2 fun q hq => ?_)
  have cleared : bitVector (clearedOf e q).row ∈ rowSpan (eqRows (insertEquation eqs e)) :=
    mem_rowSpan (List.mem_map_of_mem (List.mem_append_left _ (List.mem_map_of_mem hq)))
  unfold clearedOf at cleared
  split at cleared
  · rw [Equation.add, bitVector_xor] at cleared
    exact (Submodule.add_mem_iff_left _ new).1 cleared
  · exact cleared

end Sys2Proof.Machine
end

/-! ## The chosen basis -/

section
namespace Sys2Proof.Machine

variable {k : Nat}

theorem InSpan.mono {v : Nat} {R S : List Nat} (h : InSpan v R) (sub : R ⊆ S) : InSpan v S :=
  inSpan_iff.2 (rowSpan_le_of_subset sub (inSpan_iff.1 h))

theorem rowsOf_snoc (k : Nat) (J : List Symbol) (x : Symbol) :
    rowsOf k (J ++ [x]) = rowsOf k J ++ [rowOf k x.1.toNat] := List.map_append

@[simp] theorem length_rowsOf (k : Nat) (J : List Symbol) : (rowsOf k J).length = J.length :=
  List.length_map _

theorem mem_rowsOf {J : List Symbol} {x : Symbol} (h : x ∈ J) : rowOf k x.1.toNat ∈ rowsOf k J :=
  List.mem_map_of_mem h

theorem rowsOf_subset {I J : List Symbol} (h : I ⊆ J) : rowsOf k I ⊆ rowsOf k J := List.map_subset _ h

/-! ### What step 2 leaves chosen -/

theorem ChosenBy.sublist {l J : List Symbol} (h : ChosenBy k l J) : J.Sublist l := by
  induction h with
  | start => exact List.Sublist.refl _
  | take _ _ _ ih => exact ih.append_right _
  | skip _ _ ih => exact ih.trans (List.sublist_append_left _ _)

theorem ChosenBy.independent {l J : List Symbol} (h : ChosenBy k l J) :
    IndependentRows (rowsOf k J) := by
  induction h with
  | start => exact independentRows_nil
  | take _ _ fresh ih => exact rowsOf_snoc k _ _ ▸ ih.snoc fresh
  | skip _ _ ih => exact ih

/-- A basis short of K members spans all rows. -/
theorem ChosenBy.inSpan_of_short {l J : List Symbol} (h : ChosenBy k l J) (short : J.length < k) :
    ∀ x ∈ l, InSpan (rowOf k x.1.toNat) (rowsOf k J) := by
  induction h with
  | start => exact nofun
  | take _ room _ ih =>
    refine List.forall_mem_append.2 ⟨fun y hy => ?_, fun y hy => ?_⟩
    · exact (ih room y hy).mono (rowsOf_subset (List.subset_append_left _ _))
    · exact .of_mem (mem_rowsOf (List.mem_append_right _ hy))
  | skip _ no ih =>
    refine List.forall_mem_append.2 ⟨ih short, fun y hy => ?_⟩
    rw [List.mem_singleton.1 hy]
    exact no.resolve_left (Nat.not_le.2 short)

/-! ### The elimination chooses so -/

/-- What the elimination keeps: its equations are reduced, they hold, and they span the basis rows. -/
structure EliminationInv (k : Nat) (st : Elimination) : Prop where
  length : st.eqs.length = st.basis.length
  reduced : Reduced st.eqs
  holds : ∀ q ∈ st.eqs, q.Holds (rowsOf k st.basis)
  spans : rowSpan (rowsOf k st.basis) ≤ rowSpan (eqRows st.eqs)

theorem EliminationInv.rowSpan_eq {st : Elimination} (h : EliminationInv k st) :
    rowSpan (eqRows st.eqs) = rowSpan (rowsOf k st.basis) := by
  refine le_antisymm (rowSpan_mono (List.forall_mem_map.2 fun q hq => ?_)) h.spans
  rw [(h.holds q hq).sum]
  exact comboSum_mem_rowSpan _ _

theorem EliminationInv.inSpan_iff {st : Elimination} (h : EliminationInv k st) {v : Nat} :
    InSpan v (eqRows st.eqs) ↔ InSpan v (rowsOf k st.basis) := by
  rw [Machine.inSpan_iff, Machine.inSpan_iff, h.rowSpan_eq]

/-- The equation of a pair, with the leading bits of all others taken out. -/
def newEquation (k : Nat) (st : Elimination) (x : Symbol) : Equation :=
  reduceBy st.eqs ⟨rowOf k x.1.toNat, 2 ^ st.basis.length⟩

/-- The test of the elimination is that of step 2. -/
theorem EliminationInv.newEquation_eq_zero_iff {st : Elimination} (h : EliminationInv k st)
    (x : Symbol) :
    (newEquation k st x).row = 0 ↔ InSpan (rowOf k x.1.toNat) (rowsOf k st.basis) := by
  rw [← h.inSpan_iff, ← inSpan_reduceBy le_rfl ⟨rowOf k x.1.toNat, 2 ^ st.basis.length⟩]
  constructor
  · intro zero
    rw [Machine.inSpan_iff, ← newEquation, zero, bitVector_zero]
    exact Submodule.zero_mem _
  · exact eq_zero_of_inSpan h.reduced (clearOf_reduceBy h.reduced _)

theorem eliminateStep_take {st : Elimination} {x : Symbol} (room : st.basis.length < k)
    (fresh : (newEquation k st x).row ≠ 0) :
    eliminateStep k st x = ⟨st.basis ++ [x], insertEquation st.eqs (newEquation k st x)⟩ :=
  if_pos ⟨room, fresh⟩

theorem eliminateStep_skip {st : Elimination} {x : Symbol}
    (no : k ≤ st.basis.length ∨ (newEquation k st x).row = 0) : eliminateStep k st x = st :=
  if_neg fun ⟨room, fresh⟩ => no.elim (Nat.not_le.2 room) fresh

theorem newEquation_holds {st : Elimination} (h : EliminationInv k st) (x : Symbol) :
    (newEquation k st x).Holds (rowsOf k (st.basis ++ [x])) := by
  have new := Equation.holds_new (rowsOf k st.basis) (rowOf k x.1.toNat)
  rw [rowsOf_snoc]
  refine Equation.Holds.reduceBy ?_ fun q hq => (h.holds q hq).snoc _
  rwa [length_rowsOf] at new

theorem EliminationInv.take {st : Elimination} (h : EliminationInv k st) {x : Symbol}
    (fresh : (newEquation k st x).row ≠ 0) :
    EliminationInv k ⟨st.basis ++ [x], insertEquation st.eqs (newEquation k st x)⟩ where
  length := by simp [insertEquation_eq, h.length]
  reduced := h.reduced.insert fresh (clearOf_reduceBy h.reduced _)
  holds := by
    have new := newEquation_holds h x
    have old : ∀ q ∈ st.eqs, q.Holds (rowsOf k (st.basis ++ [x])) := fun q hq =>
      rowsOf_snoc k st.basis x ▸ (h.holds q hq).snoc _
    rw [insertEquation_eq]
    refine List.forall_mem_append.2 ⟨List.forall_mem_map.2 fun q hq => new.clearedOf (old q hq), ?_⟩
    simpa using new
  spans := by
    have grown := rowSpan_le_insertEquation st.eqs (newEquation k st x)
    refine rowSpan_mono ?_
    rw [rowsOf_snoc]
    refine List.forall_mem_append.2 ⟨fun r hr => grown (h.spans (mem_rowSpan hr)), ?_⟩
    have within : InSpan (rowOf k x.1.toNat) (eqRows (insertEquation st.eqs (newEquation k st x))) :=
      (inSpan_reduceBy grown ⟨_, 2 ^ st.basis.length⟩).1 (.of_mem (mem_eqRows_insertEquation _ _))
    simpa using Machine.inSpan_iff.1 within

theorem eliminate_snoc (k : Nat) (l : List Symbol) (x : Symbol) :
    eliminate k (l ++ [x]) = eliminateStep k (eliminate k l) x  :=
  List.foldl_concat _ _ _ _

/-- The elimination chooses what step 2 does. -/
theorem eliminate_chosenBy (k : Nat) (l : List Symbol) :
    EliminationInv k (eliminate k l) ∧ ChosenBy k l (eliminate k l).basis := by
  induction l using List.reverseRecOn with
  | nil => exact ⟨⟨rfl, ⟨nofun, .nil⟩, nofun, le_rfl⟩, .start⟩
  | append_singleton l x ih =>
    obtain ⟨inv, chosen⟩ := ih
    rw [eliminate_snoc]
    by_cases no : k ≤ (eliminate k l).basis.length ∨ (newEquation k (eliminate k l) x).row = 0
    · rw [eliminateStep_skip no]
      exact ⟨inv, chosen.skip (no.imp_right (inv.newEquation_eq_zero_iff x).1)⟩
    · obtain ⟨room, fresh⟩ := not_or.1 no
      have room := Nat.lt_of_not_le room
      rw [eliminateStep_take room fresh]
      exact ⟨inv.take fresh, chosen.take room fun mem => fresh ((inv.newEquation_eq_zero_iff x).2 mem)⟩

/-! ### A basis with K members -/

/-- The rows span all vectors of K bits. -/
def Spanning (k : Nat) (R : List Nat) : Prop := ∀ v, v < 2 ^ k → InSpan v R

theorem Spanning.mono {R S : List Nat} (h : Spanning k R) (sub : R ⊆ S) : Spanning k S :=
  fun v hv => (h v hv).mono sub

/-- A vector of K bits is the sum of unit vectors. -/
theorem bitVector_eq_sum {v : Nat} (fits : v < 2 ^ k) :
    bitVector v = ∑ i ∈ Finset.range k, gfBit (v.testBit i) • bitVector (2 ^ i) := by
  funext j
  have unit (i : Nat) : bitVector (2 ^ i) j = if i = j then 1 else 0 := by
    simp [bitVector, gfBit, Nat.testBit_two_pow]
  simp only [Finset.sum_apply, Pi.smul_apply, unit, smul_eq_mul, mul_ite, mul_one, mul_zero,
    Finset.sum_ite_eq', Finset.mem_range]
  obtain inside | outside := Nat.lt_or_ge j k
  · rw [if_pos inside, bitVector]
  · rw [if_neg (Nat.not_lt.2 outside), bitVector,
      Nat.testBit_lt_two_pow (fits.trans_le (Nat.pow_le_pow_right (by decide) outside))]
    rfl

theorem spanning_of_units {R : List Nat} (units : ∀ i < k, InSpan (2 ^ i) R) : Spanning k R := by
  intro v fits
  rw [inSpan_iff, bitVector_eq_sum fits]
  exact Submodule.sum_mem _ fun i hi =>
    Submodule.smul_mem _ _ (inSpan_iff.1 (units i (Finset.mem_range.1 hi)))

theorem independentRows_units (n : Nat) : IndependentRows ((List.range n).map (2 ^ ·)) := by
  induction n with
  | zero => exact independentRows_nil
  | succ n ih =>
    rw [List.range_succ, List.map_append]
    refine ih.snoc fun mem => ?_
    have clear := testBit_of_inSpan (i := n) (List.forall_mem_map.2 fun i hi =>
      Nat.testBit_two_pow_of_ne (List.mem_range.1 hi).ne) mem
    simp at clear

/-- Fewer than K rows do not span. -/
theorem Spanning.le_length {R : List Nat} (h : Spanning k R) : k ≤ R.length := by
  have le := (independentRows_units k).length_le (S := R) (rowSpan_mono
    (List.forall_mem_map.2 fun i hi => inSpan_iff.1
      (h _ (Nat.pow_lt_pow_right (by decide) (List.mem_range.1 hi)))))
  simpa using le

theorem EliminationInv.row_lt {st : Elimination} (h : EliminationInv k st) (pos : 1 ≤ k) {q : Equation}
    (hq : q ∈ st.eqs) : q.row < 2 ^ k := by
  refine Nat.lt_pow_two_of_testBit _ fun i hi => ?_
  refine testBit_of_inSpan (List.forall_mem_map.2 fun x _ => ?_)
    (h.inSpan_iff.1 (.of_mem (List.mem_map_of_mem hq)))
  exact Nat.testBit_lt_two_pow ((rowOf_lt pos _).trans_le (Nat.pow_le_pow_right (by decide) hi))

/-- Of K reduced equations each has a unit vector for its row. -/
theorem EliminationInv.exists_unit {st : Elimination} (h : EliminationInv k st) (pos : 1 ≤ k)
    (full : st.basis.length = k) {i : Nat} (hi : i < k) : ∃ q ∈ st.eqs, q.row = 2 ^ i := by
  have distinct : (st.eqs.map fun q => q.row.log2).Nodup := by
    refine List.pairwise_map.2 (h.reduced.apart.imp_of_mem fun {p q} hp hq apart same => ?_)
    have set := Nat.testBit_log2 (h.reduced.nonzero p hp)
    rw [same, apart.1] at set
    cases set
  have leads : (st.eqs.map fun q => q.row.log2).Perm (List.range k) := by
    refine (List.subperm_of_subset distinct (List.forall_mem_map.2 fun q hq => ?_)).perm_of_length_le
      (by simp [h.length, full])
    exact List.mem_range.2 ((Nat.log2_lt (h.reduced.nonzero q hq)).2 (h.row_lt pos hq))
  have led {j : Nat} (hj : j < k) : ∃ q ∈ st.eqs, q.row.log2 = j :=
    List.mem_map.1 (leads.mem_iff.2 (List.mem_range.2 hj))
  obtain ⟨q, hq, rfl⟩ := led hi
  refine ⟨q, hq, Nat.eq_of_testBit_eq fun j => ?_⟩
  rw [Nat.testBit_two_pow]
  by_cases same : q.row.log2 = j
  · simp [← same, Nat.testBit_log2 (h.reduced.nonzero q hq)]
  · rw [decide_eq_false same]
    obtain inside | outside := Nat.lt_or_ge j k
    · obtain ⟨p, hp, rfl⟩ := led inside
      have : Std.Symm Apart := ⟨fun _ _ apart => apart.symm⟩
      exact (h.reduced.apart.forall hq hp fun e => same (congrArg (fun q => q.row.log2) e)).1
    · exact Nat.testBit_lt_two_pow
        ((h.row_lt pos hq).trans_le (Nat.pow_le_pow_right (by decide) outside))

end Sys2Proof.Machine
end

/-! ## Reconstruction -/

section
namespace Sys2Proof.Machine

/-! ### When it succeeds -/

section
variable {k : Nat}

theorem chosenBasis_chosenBy (k : Nat) (syms : List Symbol) :
    ChosenBy k (sortSymbols syms) (chosenBasis k syms).basis :=
  (eliminate_chosenBy k (sortSymbols syms)).2

theorem chosenBasis_inv (k : Nat) (syms : List Symbol) : EliminationInv k (chosenBasis k syms) :=
  (eliminate_chosenBy k (sortSymbols syms)).1

theorem sortSymbols_perm (syms : List Symbol) : (sortSymbols syms).Perm syms :=
  List.perm_insertionSort _ syms

/-- Step 1: pairs with different ids come in strictly ascending order. -/
theorem sortSymbols_ascending {syms : List Symbol} (distinct : (syms.map Prod.fst).Nodup) :
    (sortSymbols syms).Pairwise fun x y => x.1.toNat < y.1.toNat := by
  have : Std.Total fun a b : Symbol => a.1.toNat ≤ b.1.toNat := ⟨fun _ _ => Nat.le_total _ _⟩
  have : IsTrans Symbol fun a b => a.1.toNat ≤ b.1.toNat := ⟨fun _ _ _ => Nat.le_trans⟩
  have sorted := List.pairwise_insertionSort (fun a b : Symbol => a.1.toNat ≤ b.1.toNat) syms
  have distinct := List.pairwise_map.1 (((sortSymbols_perm syms).map Prod.fst).nodup_iff.2 distinct)
  exact (sorted.and distinct).imp fun ⟨le, ne⟩ =>
    Nat.lt_of_le_of_ne le fun e => ne (BitVec.eq_of_toNat_eq e)

theorem mem_of_mem_chosenBasis {syms : List Symbol} {x : Symbol}
    (h : x ∈ (chosenBasis k syms).basis) : x ∈ syms :=
  mem_sortSymbols.1 (mem_of_mem_basis_eliminate h)

theorem length_chosenBasis_le (k : Nat) (syms : List Symbol) :
    (chosenBasis k syms).basis.length ≤ k := length_basis_eliminate_le k (sortSymbols syms)

/-- The unit vectors are the rows of the reduced equations of a full basis. -/
theorem EliminationInv.spanning {st : Elimination} (h : EliminationInv k st) (pos : 1 ≤ k)
    (full : st.basis.length = k) : Spanning k (rowsOf k st.basis) := by
  refine spanning_of_units fun i hi => ?_
  obtain ⟨q, hq, row⟩ := h.exists_unit pos full hi
  exact h.inSpan_iff.1 (.of_mem (row ▸ List.mem_map_of_mem hq))

/-- The basis spans all stored rows, whether or not it is full. -/
theorem inSpan_chosenBasis (pos : 1 ≤ k) {syms : List Symbol} {x : Symbol} (hx : x ∈ syms) :
    InSpan (rowOf k x.1.toNat) (rowsOf k (chosenBasis k syms).basis) := by
  obtain short | full := Nat.lt_or_eq_of_le (length_chosenBasis_le k syms)
  · exact (chosenBasis_chosenBy k syms).inSpan_of_short short x (mem_sortSymbols.2 hx)
  · exact (chosenBasis_inv k syms).spanning pos full _ (rowOf_lt pos _)

/-- Reconstruction gives none iff the stored rows do not span (R204 (c)). -/
theorem reconstruct_eq_none_iff_not_spanning (pos : 1 ≤ k) (c : Nat) (syms : List Symbol) :
    reconstruct k c syms = none ↔ ¬ Spanning k (rowsOf k syms) := by
  rw [reconstruct_eq_none_iff, rowRank]
  refine ⟨fun short all => ?_, fun no => ?_⟩
  · have basis : Spanning k (rowsOf k (chosenBasis k syms).basis) := fun v hv =>
      inSpan_iff.2 (rowSpan_mono (List.forall_mem_map.2 fun x hx =>
        inSpan_iff.1 (inSpan_chosenBasis pos hx)) (inSpan_iff.1 (all v hv)))
    have := basis.le_length
    rw [length_rowsOf] at this
    omega
  · refine Nat.lt_of_le_of_ne (length_chosenBasis_le k syms) fun full => no ?_
    exact ((chosenBasis_inv k syms).spanning pos full).mono
      (rowsOf_subset fun _ hx => mem_of_mem_chosenBasis hx)

end

/-- Settles O57: the rank is the size of the chosen basis. -/
theorem reconstructFailsIffRankBelow : Obligations.ReconstructFailsIffRankBelow := by
  intro k c syms pos
  have chosen := chosenBasis_chosenBy k syms
  have sub : (rowsOf k (chosenBasis k syms).basis).Subperm (rowsOf k syms) :=
    (chosen.sublist.map _).subperm.trans ((sortSymbols_perm syms).map _).subperm
  have rank := rankIs_of_subperm sub chosen.independent
    (List.forall_mem_map.2 fun x hx => inSpan_chosenBasis pos hx)
  rw [length_rowsOf] at rank
  exact ⟨_, rank, length_chosenBasis_le k syms, reconstruct_eq_none_iff k c syms⟩

/-! ### What it gives -/

section
variable {k c : Nat}

/-- The masks as the rows of a square matrix over GF(2). -/
def maskMatrix (n : Nat) (mask : Nat → Nat) : Matrix (Fin n) (Fin n) (ZMod 2) :=
  Matrix.of fun i u => gfBit ((mask i).testBit u)

/-- One bit of each of n bytes. -/
def bitColumn (n t : Nat) (byte : Nat → Byte) : Fin n → ZMod 2 := fun u => gfBit ((byte u).getLsbD t)

theorem gfBit_selectedXor (n mask t : Nat) (byte : Nat → Byte) :
    gfBit ((selectedXor n mask byte).getLsbD t)
      = ∑ u ∈ Finset.range n, gfBit (mask.testBit u) * gfBit ((byte u).getLsbD t) := by
  induction n with
  | zero => simp [selectedXor, gfBit]
  | succ n ih =>
    rw [selectedXor_succ, BitVec.getLsbD_xor, gfBit_xor, ih, Finset.sum_range_succ]
    cases mask.testBit n <;> simp [gfBit]

/-- Selecting by masks is multiplying by their matrix, bit by bit. -/
theorem selects_iff_mulVec (n : Nat) (mask : Nat → Nat) (x y : Nat → Byte) :
    (∀ i < n, x i = selectedXor n (mask i) y)
      ↔ ∀ t, bitColumn n t x = (maskMatrix n mask).mulVec (bitColumn n t y) := by
  have bit (i : Fin n) (t : Nat) :
      gfBit ((selectedXor n (mask i) y).getLsbD t)
        = (maskMatrix n mask).mulVec (bitColumn n t y) i := by
    rw [gfBit_selectedXor, ← Fin.sum_univ_eq_sum_range fun u =>
      gfBit ((mask i).testBit u) * gfBit ((y u).getLsbD t)]
    rfl
  constructor
  · intro h t
    funext i
    rw [bitColumn, h i i.isLt, bit]
  · intro h i hi
    refine BitVec.eq_of_getLsbD_eq fun t _ => gfBit_injective ?_
    rw [bit ⟨i, hi⟩]
    exact congrFun (h t) ⟨i, hi⟩

/-- Selecting by masks is undone by the masks of the inverse matrix. -/
theorem selectedXor_inverse {n : Nat} {X A : Nat → Nat} (inv : maskMatrix n X * maskMatrix n A = 1)
    {x y : Nat → Byte} :
    (∀ i < n, x i = selectedXor n (X i) y) ↔ ∀ u < n, y u = selectedXor n (A u) x := by
  rw [selects_iff_mulVec, selects_iff_mulVec]
  constructor
  · intro h t
    rw [h t, Matrix.mulVec_mulVec, mul_eq_one_comm.1 inv, Matrix.one_mulVec]
  · intro h t
    rw [h t, Matrix.mulVec_mulVec, inv, Matrix.one_mulVec]

/-- Row i of the inverse names basis rows whose sum is the i-th unit vector. -/
theorem inverseRow_holds {st : Elimination} (h : EliminationInv k st) (pos : 1 ≤ k)
    (full : st.basis.length = k) {i : Nat} (hi : i < k) :
    Equation.Holds (rowsOf k st.basis) ⟨2 ^ i, inverseRow st.eqs i⟩ := by
  obtain ⟨q, hq, row⟩ := h.exists_unit pos full hi
  unfold inverseRow
  cases found : st.eqs.find? fun q => q.row == 2 ^ i with
  | none => exact absurd (List.find?_eq_none.1 found q hq) (by simp [row])
  | some p =>
    have row : p.row = 2 ^ i := by simpa using List.find?_some found
    have holds := h.holds p (List.mem_of_find?_eq_some found)
    exact ⟨holds.fits, row ▸ holds.sum⟩

/-- The row of the basis member at a position. -/
def basisRow (k : Nat) (J : List Symbol) (u : Nat) : Nat := (rowsOf k J).getD u 0

/-- Step 4 of R205: X · A is the identity. -/
theorem inverse_mul_basis {st : Elimination} (h : EliminationInv k st) (pos : 1 ≤ k)
    (full : st.basis.length = k) :
    maskMatrix k (inverseRow st.eqs) * maskMatrix k (basisRow k st.basis) = 1 := by
  have rows : (rowsOf k st.basis).length = k := (length_rowsOf k _).trans full
  ext i j
  have unit := congrFun (inverseRow_holds h pos full i.isLt).sum j
  simp only [comboSum, rows, Finset.sum_apply, Pi.smul_apply, smul_eq_mul] at unit
  rw [← Fin.sum_univ_eq_sum_range fun u => gfBit ((inverseRow st.eqs i).testBit u)
    * bitVector ((rowsOf k st.basis).getD u 0) j] at unit
  rw [Matrix.mul_apply, Matrix.one_apply]
  refine unit.symm.trans ?_
  simp [bitVector, gfBit, Nat.testBit_two_pow, Fin.ext_iff]

/-- The source chunks that steps 4 and 5 give, for a full basis (R205). -/
def recovered (k c : Nat) (syms : List Symbol) : List Bytes :=
  (List.range k).map fun i =>
    combine c (inverseRow (chosenBasis k syms).eqs i) ((chosenBasis k syms).basis.map Prod.snd)

theorem reconstruct_of_full {syms : List Symbol} (full : (chosenBasis k syms).basis.length = k) :
    reconstruct k c syms = some (recovered k c syms).flatten := by
  simp [reconstruct, full, recovered, List.flatMap]

theorem full_of_reconstruct {syms : List Symbol} {payload : Bytes}
    (h : reconstruct k c syms = some payload) : (chosenBasis k syms).basis.length = k := by
  refine Nat.le_antisymm (length_chosenBasis_le k syms) (Nat.le_of_not_lt fun short => ?_)
  rw [(reconstruct_eq_none_iff k c syms).2 short] at h
  cases h

section
variable {syms : List Symbol}

/-- The bytes at one position of the basis chunks. -/
def basisByte (k : Nat) (syms : List Symbol) (pos u : Nat) : Byte :=
  (((chosenBasis k syms).basis.map Prod.snd).getD u []).getD pos 0#8

theorem basis_whole (whole : ∀ x ∈ syms, x.2.length = c) :
    ∀ chunk ∈ (chosenBasis k syms).basis.map Prod.snd, chunk.length = c :=
  List.forall_mem_map.2 fun x hx => whole x (mem_of_mem_chosenBasis hx)

theorem recovered_isSource (whole : ∀ x ∈ syms, x.2.length = c) : IsSource k c (recovered k c syms) :=
  ⟨by simp [recovered], List.forall_mem_map.2 fun _ _ => length_combine _ _ _ (basis_whole whole)⟩

theorem getD_recovered (whole : ∀ x ∈ syms, x.2.length = c)
    (full : (chosenBasis k syms).basis.length = k) (pos : Nat) {i : Nat} (hi : i < k) :
    ((recovered k c syms).getD i []).getD pos 0#8
      = selectedXor k (inverseRow (chosenBasis k syms).eqs i) (basisByte k syms pos) := by
  have chunk : (recovered k c syms).getD i [] = combine c (inverseRow (chosenBasis k syms).eqs i)
      ((chosenBasis k syms).basis.map Prod.snd) := by
    rw [List.getD_eq_getElem _ _ (by simpa [recovered] using hi)]
    simp [recovered]
  rw [chunk, getD_combine _ (basis_whole whole), List.length_map, full]
  rfl

/-- Basis members and positions of the basis. -/
theorem exists_position {x : Symbol} (hx : x ∈ (chosenBasis k syms).basis) :
    ∃ u < (chosenBasis k syms).basis.length,
      basisRow k (chosenBasis k syms).basis u = rowOf k x.1.toNat
        ∧ ∀ pos, basisByte k syms pos u = x.2.getD pos 0#8 := by
  obtain ⟨u, hu, rfl⟩ := List.getElem_of_mem hx
  exact ⟨u, hu, by simp [basisRow, rowsOf, hu], fun pos => by simp [basisByte, hu]⟩

/-- The recovered chunks satisfy the equation of every basis member (R205). -/
theorem isSymbolOf_recovered (pos : 1 ≤ k) (whole : ∀ x ∈ syms, x.2.length = c)
    (full : (chosenBasis k syms).basis.length = k) {x : Symbol}
    (hx : x ∈ (chosenBasis k syms).basis) :
    IsSymbolOf k c (recovered k c syms) x.1.toNat x.2 := by
  obtain ⟨u, hu, row, byte⟩ := exists_position hx
  refine isSymbolOf_iff.2 ⟨whole x (mem_of_mem_chosenBasis hx), fun p _ => ?_⟩
  have solved := (selectedXor_inverse (inverse_mul_basis (chosenBasis_inv k syms) pos full)).1
    (fun i hi => getD_recovered whole full p hi) u (full ▸ hu)
  rwa [row, byte] at solved

/-- The recovered chunks are the source chunks of which all stored chunks are symbols (R205). -/
theorem recovered_eq_sources (pos : 1 ≤ k) (full : (chosenBasis k syms).basis.length = k)
    {sources : List Bytes} (h : IsSource k c sources)
    (valid : ∀ x ∈ syms, IsSymbolOf k c sources x.1.toNat x.2) : recovered k c syms = sources := by
  have whole : ∀ x ∈ syms, x.2.length = c := fun x hx => (valid x hx).1
  have source := recovered_isSource (k := k) whole
  refine List.ext_getElem (source.1.trans h.1.symm) fun i hi hi' => ?_
  have inside : i < k := h.1 ▸ hi'
  refine bytes_ext (source.2 _ (List.getElem_mem hi)) (h.2 _ (List.getElem_mem hi')) fun p hp => ?_
  have solved := (selectedXor_inverse (inverse_mul_basis (chosenBasis_inv k syms) pos full)
    (x := fun i => (sources.getD i []).getD p 0#8) (y := basisByte k syms p)).2 (fun u hu => by
      have hu := full.symm ▸ hu
      have mem := List.getElem_mem hu
      have := (isSymbolOf_iff.1 (valid _ (mem_of_mem_chosenBasis mem))).2 p hp
      simpa [basisByte, basisRow, rowsOf, hu] using this) i inside
  have recoveredByte := getD_recovered whole full p inside
  rw [List.getD_eq_getElem _ _ hi] at recoveredByte
  simp only [List.getD_eq_getElem _ _ hi'] at solved
  exact recoveredByte.trans solved.symm

end

end

/-- Settles O56: the elimination chooses as step 2 does, and its reduced equations are the inverse of
step 4. -/
theorem reconstructFollowsItsSteps : Obligations.ReconstructFollowsItsSteps := by
  intro k c syms pos distinct whole
  refine ⟨sortSymbols syms, (chosenBasis k syms).basis, sortSymbols_perm syms, ?_,
    chosenBasis_chosenBy k syms, (reconstruct_eq_none_iff k c syms).2, fun le => ?_⟩
  · exact sortSymbols_ascending distinct
  · have full := Nat.le_antisymm (length_chosenBasis_le k syms) le
    exact ⟨recovered k c syms, recovered_isSource whole, reconstruct_of_full full,
      fun x hx => isSymbolOf_recovered pos whole full hx⟩

/-- Settles O58: the source chunks are the one solution of the equations of a full basis. -/
theorem reconstructRecoversSources : Obligations.ReconstructRecoversSources := by
  intro k c syms sources payload pos h valid rebuilt
  have full := full_of_reconstruct rebuilt
  rw [reconstruct_of_full full, recovered_eq_sources pos full h valid] at rebuilt
  exact (Option.some.inj rebuilt).symm

end Sys2Proof.Machine
end

/-! ## A session of `ACCEPT`s -/

section
namespace Sys2Proof.Machine

/-! ### What an `ACCEPT` does in the LIVE phase -/

/-- What an `ACCEPT` of C bytes does in the LIVE phase before it answers, with the test that applied
(R206). -/
inductive Received (s : State) (g sid : Id16) (data : Bytes) : Bool → State → Prop where
  | erased : Received s g sid data true s
  | flushed (below : g.toNat < s.blk.nextGroup) : Received s g sid data false s
  | resolved {payload : Bytes} (opened : s.blk.nextGroup ≤ g.toNat)
      (found : gtGet s.blk.gt g.toNat = some (.resolved payload)) :
      Received s g sid data false (raiseHigh g.toNat s)
  | duplicate {held : List Symbol} (opened : s.blk.nextGroup ≤ g.toNat)
      (found : gtGet s.blk.gt g.toNat = some (.collecting held)) (known : sid ∈ held.map Prod.fst) :
      Received s g sid data false (raiseHigh g.toNat s)
  | dropped (opened : s.blk.nextGroup ≤ g.toNat) :
      Received s g sid data false (setOverflow (raiseHigh g.toNat s))
  | stored {held : List Symbol} (opened : s.blk.nextGroup ≤ g.toNat)
      (stores : Stores s.blk g.toNat sid data held) :
      Received s g sid data false
        (flushAll (putEntry g.toNat (entryOf s.blk.cfg (held ++ [(sid, data)]))
          (raiseHigh g.toNat s))).1

/-- `t` is `u` with one response more, a response without data. -/
def Answers (u t : State) : Prop := ∃ op value, t = respond op value [] u

theorem acceptWithout_answers (op : Byte) (disp : Disposition) (s : State) :
    Answers s (acceptWithout op disp s) := ⟨op, _, rfl⟩

theorem acceptChunk_stored_answers {op : Byte} {g : Nat} {sid : Id16} {chunk : Bytes} {s : State}
    (live : s.blk.phase = .live) (opened : s.blk.nextGroup ≤ g) {held : List Symbol}
    (stores : Stores s.blk g sid chunk held) :
    Answers (flushAll (putEntry g (entryOf s.blk.cfg (held ++ [(sid, chunk)])) (raiseHigh g s))).1
      (acceptChunk op false g sid chunk s) := by
  rw [acceptChunk_stored live opened stores]
  obtain ⟨attempted, now, eq⟩ := acceptStored_eq op g (held ++ [(sid, chunk)]) (raiseHigh g s)
  rw [eq]
  exact ⟨op, _, rfl⟩

/-- Every `ACCEPT` of the LIVE phase is one of these, where a group has room for a symbol. -/
theorem acceptChunk_received {s : State} (live : s.blk.phase = .live) (room : 0 < s.blk.cfg.maxSymbols)
    (op : Byte) (e : Bool) (g sid : Id16) {data : Bytes} (whole : data.length = s.blk.cfg.chunkSize) :
    ∃ u, Received s g sid data e u ∧ Answers u (acceptChunk op e g.toNat sid data s) := by
  cases e with
  | true => exact ⟨_, .erased, acceptChunk_erased live ▸ acceptWithout_answers _ _ _⟩
  | false =>
    obtain below | opened := Nat.lt_or_ge g.toNat s.blk.nextGroup
    · exact ⟨_, .flushed below, acceptChunk_flushed live below ▸ acceptWithout_answers _ _ _⟩
    · cases found : gtGet s.blk.gt g.toNat with
      | none =>
        obtain full | space := Nat.lt_or_ge s.blk.gt.length s.blk.cfg.maxGroups |>.symm
        · exact ⟨_, .dropped opened,
            acceptChunk_noGroup live opened found full ▸ acceptWithout_answers _ _ _⟩
        · have stores : Stores s.blk g.toNat sid data [] :=
            ⟨.inr ⟨found, rfl, space⟩, List.not_mem_nil, room, whole⟩
          exact ⟨_, .stored opened stores, acceptChunk_stored_answers live opened stores⟩
      | some entry =>
        cases entry with
        | resolved payload =>
          exact ⟨_, .resolved opened found,
            acceptChunk_resolved live opened found ▸ acceptWithout_answers _ _ _⟩
        | collecting held =>
          by_cases known : sid ∈ held.map Prod.fst
          · refine ⟨_, .duplicate opened found known, ?_⟩
            rw [acceptChunk_collecting live opened found, acceptSymbol_duplicate known]
            exact acceptWithout_answers _ _ _
          · obtain full | space := Nat.lt_or_ge held.length s.blk.cfg.maxSymbols |>.symm
            · refine ⟨_, .dropped opened, ?_⟩
              rw [acceptChunk_collecting live opened found,
                acceptSymbol_storeFull (s := raiseHigh _ s) known full]
              exact acceptWithout_answers _ _ _
            · have stores : Stores s.blk g.toNat sid data held := ⟨.inl found, known, space, whole⟩
              exact ⟨_, .stored opened stores, acceptChunk_stored_answers live opened stores⟩

/-- Under a valid configuration K is at least 1 (R303). -/
theorem BlockInv.sourceChunks_pos {b : Block} (h : BlockInv b) (ok : b.cfgOk = true) :
    1 ≤ b.cfg.sourceChunks := by
  obtain ⟨-, -, -, -, k, -⟩ := (strapsValid_iff b.cfg).1 (h.cfgOk_valid.symm.trans ok)
  exact k

theorem exec_accept_received {s t : State} (inv : BlockInv s.blk) (ok : s.blk.cfgOk = true)
    (live : s.blk.phase = .live) {e : Bool} {g sid : Id16} {data : Bytes}
    (whole : data.length = s.blk.cfg.chunkSize) (ran : exec (.accept e g sid data) s = .next t) :
    ∃ u, Received s g sid data e u ∧ Answers u t := by
  have room := maxSymbols_pos_of_strapsValid (inv.cfgOk_valid.symm.trans ok)
  rw [exec_accept_eq e g sid ok whole] at ran
  exact Host.Outcome.next.inj ran ▸ acceptChunk_received live room _ e g sid whole

/-! ### Runs of commands -/

theorem runCommands_cons {i : Instr} {rest : List Instr} {s t : State}
    (h : runCommands (i :: rest) s = some t) :
    ∃ u, exec i s = .next u ∧ runCommands rest u = some t := by
  obtain ⟨u, hu⟩ := exec_next i s
  exact ⟨u, hu, by simpa [runCommands, hu] using h⟩

theorem runCommands_append {l r : List Instr} {s t : State} (h : runCommands (l ++ r) s = some t) :
    ∃ u, runCommands l s = some u ∧ runCommands r u = some t := by
  induction l generalizing s with
  | nil => exact ⟨s, rfl, h⟩
  | cons i l ih =>
    obtain ⟨u, hu, rest⟩ := runCommands_cons h
    obtain ⟨v, hv, last⟩ := ih rest
    exact ⟨v, by simpa [runCommands, hu] using hv, last⟩

/-- A session is its `ACCEPT`s, then `FINALIZE`. -/
theorem runCommands_session {chunks : List AcceptArgs} {s t : State}
    (h : runCommands (chunks.map AcceptArgs.command ++ [.finalize []]) s = some t) :
    ∃ u, runCommands (chunks.map AcceptArgs.command) s = some u ∧ exec (.finalize []) u = .next t := by
  obtain ⟨u, accepts, last⟩ := runCommands_append h
  obtain ⟨v, final, stop⟩ := runCommands_cons last
  exact ⟨u, accepts, Option.some.inj stop ▸ final⟩

/-- What every `ACCEPT` keeps, the run of them keeps: `P done t` speaks of the state after `done`. -/
theorem runAccepts_induct (P : List AcceptArgs → State → Prop) {chunks : List AcceptArgs} {s t : State}
    (start : P [] s)
    (accept : ∀ done, ∀ a ∈ chunks, ∀ u v, P done u → exec a.command u = .next v → P (done ++ [a]) v)
    (run : runCommands (chunks.map AcceptArgs.command) s = some t) : P chunks t := by
  have key : ∀ (rest done : List AcceptArgs) (u : State), rest ⊆ chunks → P done u →
      runCommands (rest.map AcceptArgs.command) u = some t → P (done ++ rest) t := by
    intro rest
    induction rest with
    | nil =>
      rintro done u - h run
      rw [List.append_nil]
      exact Option.some.inj run ▸ h
    | cons a rest ih =>
      intro done u sub h run
      obtain ⟨mem, sub⟩ := List.cons_subset.1 sub
      obtain ⟨v, ran, run⟩ := runCommands_cons run
      simpa using ih (done ++ [a]) v sub (accept done a mem u v h ran) run
  exact key chunks [] s (List.Subset.refl _) start run

end Sys2Proof.Machine
end

/-! ## The bytes that a session pushes -/

section
namespace Sys2Proof.Machine

/-! ### What the table holds -/

/-- An entry that holds valid symbols of these source chunks, or the source chunks themselves. -/
def Faithful (cfg : Cfg) (sources : List Bytes) : GroupEntry → Prop
  | .collecting syms => ∀ x ∈ syms, IsSymbolOf cfg.sourceChunks cfg.chunkSize sources x.1.toNat x.2
  | .resolved payload => payload = sources.flatten

theorem faithful_entryOf {cfg : Cfg} {sources : List Bytes} {syms : List Symbol}
    (pos : 1 ≤ cfg.sourceChunks) (source : IsSource cfg.sourceChunks cfg.chunkSize sources)
    (valid : ∀ x ∈ syms, IsSymbolOf cfg.sourceChunks cfg.chunkSize sources x.1.toNat x.2) :
    Faithful cfg sources (entryOf cfg syms) := by
  unfold entryOf
  cases rebuilt : reconstruct cfg.sourceChunks cfg.chunkSize syms with
  | some payload => exact reconstructRecoversSources _ _ _ _ _ pos source valid rebuilt
  | none => exact valid

/-- The offset of a group and the bytes of the stream there (R201). -/
def spanOf (cfg : Cfg) (sources : Nat → List Bytes) (g : Nat) : Nat × Bytes :=
  (g * cfg.groupSize, (sources g).flatten)

/-- From `s` to `t` the groups below the cursor have been pushed with their bytes of the stream, and the
table holds nothing but symbols and bytes of the stream. -/
structure PushesSpans (s : State) (sources : Nat → List Bytes) (t : State) : Prop where
  cfg : t.blk.cfg = s.blk.cfg
  faithful : ∀ x ∈ t.blk.gt, Faithful s.blk.cfg (sources x.1) x.2
  pushes : pushesOf t.env.calls
    = pushesOf s.env.calls ++ (List.range t.blk.nextGroup).map (spanOf s.blk.cfg sources)

theorem PushesSpans.payload_eq {s t : State} {sources : Nat → List Bytes} (h : PushesSpans s sources t)
    {g : Nat} {payload : Bytes} (hp : resolvedPayload t.blk.gt g = some payload) :
    payload = (sources g).flatten := h.faithful _ (mem_of_gtGet (resolvedPayload_eq_some.1 hp))

/-- One turn of the flush loop pushes the span of the group at the cursor. -/
theorem PushesSpans.turn {s t : State} {sources : Nat → List Bytes} (h : PushesSpans s sources t)
    {payload : Bytes} (hp : resolvedPayload t.blk.gt t.blk.nextGroup = some payload) :
    PushesSpans s sources (advanceCursor (flush t.blk.nextGroup payload t)) where
  cfg := h.cfg
  faithful := fun x hx => h.faithful x (mem_gtErase.1 hx).1
  pushes := by
    obtain rfl := h.payload_eq hp
    rw [advanceCursor_env, flush_calls, pushesOf_append, h.pushes, h.cfg, advanceCursor_nextGroup,
      flush_nextGroup, List.range_succ, List.map_append, List.append_assoc]
    rfl

theorem PushesSpans.flushAll {s t : State} {sources : Nat → List Bytes} (h : PushesSpans s sources t) :
    PushesSpans s sources (flushAll t).1 :=
  flushLoop_induct (fun u _ => PushesSpans s sources u) (fun _ _ _ _ hp h => h.turn hp) _ _ _ h

/-! ### A session in its LIVE phase -/

/-- `t` is a state of a session of `ACCEPT`s that began in `s`. -/
structure InSession (s : State) (sources : Nat → List Bytes) (t : State) : Prop
    extends PushesSpans s sources t where
  inv : BlockInv t.blk
  ok : t.blk.cfgOk = true
  live : t.blk.phase = .live

theorem FreshSession.inSession {s : State} (h : FreshSession s) (sources : Nat → List Bytes) :
    InSession s sources s := by
  obtain ⟨inv, ok, live, gt, next, -⟩ := h
  exact { cfg := rfl, faithful := by simp [gt], pushes := by simp [next], inv, ok, live }

theorem Received.keeps_phase {s u : State} {g sid : Id16} {data : Bytes} {e : Bool}
    (h : Received s g sid data e u) : u.blk.phase = s.blk.phase := by
  cases h with
  | stored => exact (flushAll_onlyFlushed _).phase
  | _ => rfl

/-- An `ACCEPT` of a valid symbol, or of any erased chunk, keeps the table faithful. -/
theorem Received.pushesSpans {s t u : State} {sources : Nat → List Bytes} {g sid : Id16} {data : Bytes}
    {e : Bool} (received : Received t g sid data e u) (h : PushesSpans s sources t)
    (pos : 1 ≤ s.blk.cfg.sourceChunks)
    (source : ∀ g, IsSource s.blk.cfg.sourceChunks s.blk.cfg.chunkSize (sources g))
    (valid : e = false → IsSymbolOf s.blk.cfg.sourceChunks s.blk.cfg.chunkSize (sources g.toNat)
      sid.toNat data) : PushesSpans s sources u := by
  cases received with
  | @stored held _ stores =>
    refine PushesSpans.flushAll { h with faithful := fun x hx => ?_ }
    obtain rfl | mem := mem_gtSet hx
    · rw [h.cfg]
      refine faithful_entryOf pos (source _) (List.forall_mem_append.2 ⟨?_, by simpa using valid rfl⟩)
      obtain found | ⟨-, rfl, -⟩ := stores.holds
      · exact h.faithful _ (mem_of_gtGet found)
      · exact nofun
    · exact h.faithful x mem
  | _ => exact { h with }

theorem keeps_cfgOk_of_exec {i : Instr} {s t : State} (ran : exec i s = .next t) :
    t.blk.cfgOk = s.blk.cfgOk := by
  obtain ⟨u, hu, -, ok⟩ := commandsKeepConfiguration i s
  exact Host.Outcome.next.inj (hu.symm.trans ran) ▸ ok

theorem InSession.accept {s t u : State} {sources : Nat → List Bytes} (h : InSession s sources t)
    (source : ∀ g, IsSource s.blk.cfg.sourceChunks s.blk.cfg.chunkSize (sources g))
    {a : AcceptArgs} (valid : a.1 = false →
      IsSymbolOf s.blk.cfg.sourceChunks s.blk.cfg.chunkSize (sources a.2.1.toNat) a.2.2.1.toNat a.2.2.2)
    (ran : exec a.command t = .next u) : InSession s sources u := by
  obtain ⟨e, g, sid, data⟩ := a
  have inv := (ends_of_exec ran).keeps_blockInv h.inv
  have ok : u.blk.cfgOk = true := (keeps_cfgOk_of_exec ran).trans h.ok
  by_cases whole : data.length = t.blk.cfg.chunkSize
  · obtain ⟨v, received, op, value, rfl⟩ := exec_accept_received h.inv h.ok h.live whole ran
    have pos := h.cfg ▸ h.inv.sourceChunks_pos h.ok
    have spans := received.pushesSpans h.toPushesSpans pos source valid
    exact { spans with inv, ok, live := received.keeps_phase.trans h.live }
  · rw [show AcceptArgs.command (e, g, sid, data) = .accept e g sid data from rfl,
      exec_accept_badLength e g sid h.ok whole] at ran
    obtain rfl := Host.Outcome.next.inj ran
    exact { h.toPushesSpans with inv, ok, live := h.live }

/-! ### Its end -/

theorem pushesOf_afterFlushes (groups : List (Nat × Bytes)) (s : State) :
    pushesOf (afterFlushes groups s).env.calls
      = pushesOf s.env.calls ++ groups.map fun x => (x.1 * s.blk.cfg.groupSize, x.2) := by
  induction groups generalizing s with
  | nil => rw [afterFlushes_nil, List.map_nil, List.append_nil]
  | cons x rest ih =>
    rw [afterFlushes_cons, ih, flush_calls, pushesOf_append, flush_cfg, List.append_assoc]
    rfl

/-- The ids of the groups that `FINALIZE` flushes. -/
theorem heldGroups_map_fst (b : Block) :
    (heldGroups b).map Prod.fst
      = (List.range' b.nextGroup (b.high - b.nextGroup)).filter fun g =>
          (resolvedPayload b.gt g).isSome := by
  rw [heldGroups, List.map_filterMap, ← List.filterMap_eq_filter]
  refine List.filterMap_congr fun g _ => ?_
  cases h : resolvedPayload b.gt g <;> simp [Option.guard, h]

/-- The groups that a session flushes in all: those below the cursor and those held. -/
def flushedGroups (b : Block) : List Nat := List.range b.nextGroup ++ (heldGroups b).map Prod.fst

theorem flushedGroups_ascending (b : Block) : (flushedGroups b).Pairwise (· < ·) := by
  refine List.pairwise_append.2 ⟨List.pairwise_lt_range, ?_, fun x hx y hy => ?_⟩
  · rw [heldGroups_map_fst]
    exact List.Pairwise.filter _ List.pairwise_lt_range'
  · rw [heldGroups_map_fst] at hy
    exact (List.mem_range.1 hx).trans_le (List.mem_range'_1.1 (List.mem_filter.1 hy).1).1

/-- What a session has pushed when `FINALIZE` has ended it, and what the last response reports. -/
theorem InSession.finalize {s t u : State} {sources : Nat → List Bytes} (h : InSession s sources t)
    (ran : exec (.finalize []) t = .next u) :
    pushesOf u.env.calls
        = pushesOf s.env.calls ++ (flushedGroups t.blk).map (spanOf s.blk.cfg sources)
      ∧ u.env.outbox.getLast?.map Response.rdata
        = some (lossRecords s.blk.cfg.groupSize (lostGroups t.blk)) := by
  rw [exec_finalize_live h.inv h.ok h.live rfl] at ran
  obtain rfl := Host.Outcome.next.inj ran
  constructor
  · have payloads : ∀ x ∈ heldGroups t.blk,
        (x.1 * s.blk.cfg.groupSize, x.2) = spanOf s.blk.cfg sources x.1 := fun x hx => by
      obtain ⟨g, -, found⟩ := List.mem_filterMap.1 hx
      obtain ⟨payload, hp, rfl⟩ := Option.map_eq_some_iff.1 found
      rw [h.payload_eq hp]
      rfl
    refine (pushesOf_afterFlushes (heldGroups t.blk) t).trans ?_
    rw [h.pushes, h.cfg, flushedGroups, List.map_append, List.map_map, List.append_assoc,
      List.map_congr_left payloads]
    rfl
  · simp [answered, okResponse, h.cfg]

/-- Settles O59: the groups below the cursor and the RESOLVED ones above it, in ascending order. -/
theorem sessionPushesOriginalBytes : Obligations.SessionPushesOriginalBytes := by
  intro s t chunks sources fresh source valid run
  obtain ⟨u, accepts, final⟩ := runCommands_session run
  have session := runAccepts_induct (fun _ u => InSession s sources u) (fresh.inSession sources)
    (fun _ a mem _ _ h ran => h.accept source (valid a mem) ran) accepts
  exact ⟨flushedGroups u.blk, (session.finalize final).1, flushedGroups_ascending u.blk⟩

end Sys2Proof.Machine
end

/-! ## The order of arrival -/

section
namespace Sys2Proof.Machine

/-! ### What has arrived -/

/-- A chunk that is not erased has come with these ids. -/
def Arrived (done : List AcceptArgs) (g : Nat) (sid : Id16) : Prop :=
  ∃ a ∈ done, a.1 = false ∧ a.2.1.toNat = g ∧ a.2.2.1 = sid

/-- The rows of the symbols that have come for a group. -/
def arrivedRows (k : Nat) (done : List AcceptArgs) (g : Nat) : List Nat :=
  (done.filter fun a => !a.1 && a.2.1.toNat == g).map fun a => rowOf k a.2.2.1.toNat

/-- The symbols that have come for a group suffice (R230 (a)). -/
def Decodable (k : Nat) (done : List AcceptArgs) (g : Nat) : Prop := Spanning k (arrivedRows k done g)

/-- `HIGH` as the chunks that have come make it (R208). -/
def arrivedHigh (done : List AcceptArgs) : Nat :=
  done.foldl (fun high a => if a.1 then high else max high (a.2.1.toNat + 1)) 0

theorem mem_arrivedRows {k : Nat} {done : List AcceptArgs} {g r : Nat} :
    r ∈ arrivedRows k done g ↔ ∃ sid, Arrived done g sid ∧ rowOf k sid.toNat = r := by
  have counts (a : AcceptArgs) : (!a.1 && a.2.1.toNat == g) = true ↔ a.1 = false ∧ a.2.1.toNat = g := by
    simp
  simp only [arrivedRows, List.mem_map, List.mem_filter, counts]
  constructor
  · rintro ⟨a, ⟨mem, sent, group⟩, row⟩
    exact ⟨_, ⟨a, mem, sent, group, rfl⟩, row⟩
  · rintro ⟨_, ⟨a, mem, sent, group, rfl⟩, row⟩
    exact ⟨a, ⟨mem, sent, group⟩, row⟩

theorem arrived_snoc {done : List AcceptArgs} {e : Bool} {g sid : Id16} {data : Bytes} {h : Nat}
    {x : Id16} :
    Arrived (done ++ [(e, g, sid, data)]) h x
      ↔ Arrived done h x ∨ e = false ∧ g.toNat = h ∧ sid = x := by
  simp [Arrived, or_and_right, exists_or]

theorem arrivedHigh_snoc (done : List AcceptArgs) (e : Bool) (g sid : Id16) (data : Bytes) :
    arrivedHigh (done ++ [(e, g, sid, data)])
      = if e then arrivedHigh done else max (arrivedHigh done) (g.toNat + 1) :=
  List.foldl_concat _ _ _ _

theorem Decodable.mono {k g : Nat} {done more : List AcceptArgs} (h : Decodable k done g)
    (sub : ∀ sid, Arrived done g sid → Arrived more g sid) : Decodable k more g :=
  Spanning.mono h fun _ hr => by
    obtain ⟨sid, arrived, row⟩ := mem_arrivedRows.1 hr
    exact mem_arrivedRows.2 ⟨sid, sub sid arrived, row⟩

/-! ### What the order does not change -/

theorem Arrived.perm {done other : List AcceptArgs} (perm : done.Perm other) {g : Nat} {sid : Id16} :
    Arrived done g sid ↔ Arrived other g sid := by
  simp only [Arrived, perm.mem_iff]

theorem Decodable.perm {done other : List AcceptArgs} (perm : done.Perm other) {k g : Nat} :
    Decodable k done g ↔ Decodable k other g :=
  ⟨fun h => h.mono fun _ => (Arrived.perm perm).1, fun h => h.mono fun _ => (Arrived.perm perm).2⟩

theorem arrivedHigh_perm {done other : List AcceptArgs} (perm : done.Perm other) :
    arrivedHigh done = arrivedHigh other :=
  perm.foldl_eq' (fun a _ b _ high => by
    cases a.1 <;> cases b.1 <;> simp [max_comm, max_left_comm]) 0

/-! ### What the block has made of it -/

/-- What the table says of a group at or above the cursor. -/
inductive GroupSeen (k : Nat) (done : List AcceptArgs) (gt : GroupTable) (g : Nat) : Prop where
  | resolved {payload : Bytes} (found : gtGet gt g = some (.resolved payload))
      (enough : Decodable k done g)
  | collecting {held : List Symbol} (found : gtGet gt g = some (.collecting held))
      (same : ∀ sid, sid ∈ held.map Prod.fst ↔ Arrived done g sid)
  | absent (none : gtGet gt g = none) (nothing : ∀ sid, ¬ Arrived done g sid)

/-- The block has taken all these chunks into account. -/
structure Collected (k : Nat) (done : List AcceptArgs) (b : Block) : Prop where
  high : b.high = arrivedHigh done
  closed : ∀ g < b.nextGroup, Decodable k done g
  seen : ∀ g, b.nextGroup ≤ g → GroupSeen k done b.gt g

theorem FreshSession.collected {s : State} (h : FreshSession s) (k : Nat) : Collected k [] s.blk := by
  obtain ⟨-, -, -, gt, next, high⟩ := h
  exact ⟨high, by simp [next], fun g _ => .absent (by simp [gt, gtGet]) fun sid => by simp [Arrived]⟩

theorem GroupSeen.congr {k g : Nat} {done more : List AcceptArgs} {gt hu : GroupTable}
    (h : GroupSeen k done gt g) (entry : gtGet hu g = gtGet gt g)
    (same : ∀ sid, Arrived more g sid ↔ Arrived done g sid) : GroupSeen k more hu g := by
  cases h with
  | resolved found enough => exact .resolved (entry.trans found) (enough.mono fun _ => (same _).2)
  | collecting found held =>
    exact .collecting (entry.trans found) fun sid => (held sid).trans (same sid).symm
  | absent none nothing => exact .absent (entry.trans none) fun sid => mt (same sid).1 (nothing sid)

theorem GroupSeen.decodable {k g : Nat} {done : List AcceptArgs} {gt : GroupTable}
    (h : GroupSeen k done gt g) {payload : Bytes} (found : gtGet gt g = some (.resolved payload)) :
    Decodable k done g := by
  cases h with
  | resolved _ enough => exact enough
  | collecting other => simp [found] at other
  | absent none => simp [found] at none

/-- One turn of the flush loop closes a group that is decodable. -/
theorem Collected.turn {k : Nat} {done : List AcceptArgs} {s : State} (h : Collected k done s.blk)
    {payload : Bytes} (hp : resolvedPayload s.blk.gt s.blk.nextGroup = some payload) :
    Collected k done (advanceCursor (flush s.blk.nextGroup payload s)).blk where
  high := h.high
  closed := fun g hg => by
    obtain below | rfl := Nat.lt_succ_iff_lt_or_eq.1 hg
    · exact h.closed g below
    · exact (h.seen _ le_rfl).decodable (resolvedPayload_eq_some.1 hp)
  seen := fun g hg =>
    (h.seen g (Nat.le_of_succ_le hg)).congr (gtGet_gtErase_other _ _ _ (Nat.ne_of_gt hg))
      fun _ => Iff.rfl

theorem Collected.flushAll {k : Nat} {done : List AcceptArgs} {s : State}
    (h : Collected k done s.blk) : Collected k done (flushAll s).1.blk :=
  flushLoop_induct (fun t _ => Collected k done t.blk) (fun _ _ _ _ hp h => h.turn hp) _ _ _ h

/-! ### A further chunk -/

section
variable {k : Nat} {done : List AcceptArgs} {s u : State} {g sid : Id16} {data : Bytes}

theorem arrived_snoc_other {h : Nat} (other : h ≠ g.toNat) (e : Bool) (x : Id16) :
    Arrived (done ++ [(e, g, sid, data)]) h x ↔ Arrived done h x :=
  arrived_snoc.trans (or_iff_left fun ⟨_, same, _⟩ => other same.symm)

theorem Decodable.snoc {h : Nat} (enough : Decodable k done h) (e : Bool) :
    Decodable k (done ++ [(e, g, sid, data)]) h :=
  enough.mono fun _ arrived => arrived_snoc.2 (.inl arrived)

/-- A chunk that is not erased counts for `HIGH`, also where its group is FLUSHED. -/
theorem Collected.high_snoc (h : Collected k done s.blk) :
    max s.blk.high (g.toNat + 1) = arrivedHigh (done ++ [(false, g, sid, data)]) := by
  rw [arrivedHigh_snoc, ← h.high]
  rfl

/-- What an entry of stored symbols says, if it holds exactly those that have come. -/
theorem groupSeen_entryOf {cfg : Cfg} (pos : 1 ≤ cfg.sourceChunks) {gt : GroupTable} {h : Nat}
    {syms : List Symbol} (found : gtGet gt h = some (entryOf cfg syms))
    (same : ∀ x, x ∈ syms.map Prod.fst ↔ Arrived done h x) :
    GroupSeen cfg.sourceChunks done gt h := by
  unfold entryOf at found
  cases rebuilt : reconstruct cfg.sourceChunks cfg.chunkSize syms with
  | none =>
    rw [rebuilt] at found
    exact .collecting found same
  | some payload =>
    rw [rebuilt] at found
    have spanning : Spanning cfg.sourceChunks (rowsOf cfg.sourceChunks syms) := by
      by_contra no
      rw [(reconstruct_eq_none_iff_not_spanning pos cfg.chunkSize syms).2 no] at rebuilt
      cases rebuilt
    refine .resolved found (spanning.mono (List.forall_mem_map.2 fun x hx => ?_))
    exact mem_arrivedRows.2 ⟨x.1, (same x.1).1 (List.mem_map_of_mem hx), rfl⟩

/-- The symbols held are those that have come before. -/
theorem Collected.held_iff (h : Collected k done s.blk) (opened : s.blk.nextGroup ≤ g.toNat)
    {held : List Symbol} (holds : HeldSymbols s.blk g.toNat held) (x : Id16) :
    x ∈ held.map Prod.fst ↔ Arrived done g.toNat x := by
  cases h.seen g.toNat opened with
  | resolved other => obtain found | ⟨found, -⟩ := holds <;> simp [found] at other
  | collecting other same =>
    obtain found | ⟨found, -⟩ := holds
    · obtain rfl : _ = held := by simpa [other] using found
      exact same x
    · simp [found] at other
  | absent none nothing =>
    obtain found | ⟨-, rfl, -⟩ := holds
    · simp [none] at found
    · simpa using nothing x

/-- What a further chunk takes: other groups are left alone, and its own group, if open, is seen so. -/
theorem Collected.arrive (h : Collected k done s.blk) {e : Bool} {b : Block}
    (next : b.nextGroup = s.blk.nextGroup)
    (high : b.high = arrivedHigh (done ++ [(e, g, sid, data)]))
    (others : ∀ x, x ≠ g.toNat → gtGet b.gt x = gtGet s.blk.gt x)
    (own : s.blk.nextGroup ≤ g.toNat → GroupSeen k (done ++ [(e, g, sid, data)]) b.gt g.toNat) :
    Collected k (done ++ [(e, g, sid, data)]) b where
  high := high
  closed := fun x hx => (h.closed x (next ▸ hx)).snoc e
  seen := fun x hx => by
    have opened := next ▸ hx
    by_cases other : x = g.toNat
    · exact other ▸ own (other ▸ opened)
    · exact (h.seen x opened).congr (others x other) fun y => arrived_snoc_other other e y

/-- An `ACCEPT` that drops nothing for want of room takes its chunk into account. -/
theorem Received.collected {e : Bool} (received : Received s g sid data e u)
    (h : Collected s.blk.cfg.sourceChunks done s.blk) (pos : 1 ≤ s.blk.cfg.sourceChunks)
    (cursor : s.blk.nextGroup ≤ s.blk.high) (clean : u.blk.overflow = false) :
    Collected s.blk.cfg.sourceChunks (done ++ [(e, g, sid, data)]) u.blk := by
  cases received with
  | erased =>
    have same (x : Id16) :
        Arrived (done ++ [(true, g, sid, data)]) g.toNat x ↔ Arrived done g.toNat x :=
      arrived_snoc.trans (or_iff_left (by simp))
    exact h.arrive rfl (h.high.trans (by rw [arrivedHigh_snoc]; rfl)) (fun _ _ => rfl)
      fun opened => (h.seen _ opened).congr rfl same
  | flushed below =>
    have high : max s.blk.high (g.toNat + 1) = s.blk.high :=
      Nat.max_eq_left (Nat.le_trans below cursor)
    exact h.arrive rfl (high.symm.trans h.high_snoc) (fun _ _ => rfl)
      fun opened => absurd opened (Nat.not_le.2 below)
  | resolved opened found =>
    exact h.arrive rfl h.high_snoc (fun _ _ => rfl) fun _ =>
      .resolved found (((h.seen _ opened).decodable found).snoc false)
  | duplicate opened found known =>
    have come := (h.held_iff opened (.inl found) sid).1 known
    exact h.arrive rfl h.high_snoc (fun _ _ => rfl) fun _ => (h.seen _ opened).congr rfl fun x =>
      arrived_snoc.trans (or_iff_left_of_imp fun ⟨_, _, same⟩ => same ▸ come)
  | dropped => exact absurd clean (by simp)
  | @stored held opened stores =>
    refine Collected.flushAll (h.arrive rfl h.high_snoc (fun x other => gtGet_gtSet_other _ _ _ _ other)
      fun _ => groupSeen_entryOf pos (gtGet_gtSet_same _ _ _) fun x => ?_)
    rw [arrived_snoc, ← h.held_iff opened stores.holds x]
    simp [eq_comm]

end

/-! ### The whole session -/

/-- At or above the cursor the RESOLVED groups are the decodable ones. -/
theorem Collected.resolved_iff {k : Nat} {done : List AcceptArgs} {b : Block} (h : Collected k done b)
    (inv : BlockInv b) (pos : 1 ≤ k) (cfg : b.cfg.sourceChunks = k) {g : Nat}
    (opened : b.nextGroup ≤ g) :
    (resolvedPayload b.gt g).isSome = true ↔ Decodable k done g := by
  cases h.seen g opened with
  | resolved found enough => simp [resolvedPayload_eq_some.2 found, enough]
  | @collecting held found same =>
    obtain ⟨-, -, -, -, rank⟩ := inv.entries_ok _ (mem_of_gtGet found)
    rw [cfg] at rank
    have short := (reconstruct_eq_none_iff_not_spanning pos b.cfg.chunkSize held).1
      ((reconstruct_eq_none_iff k _ held).2 rank)
    have few : ¬ Decodable k done g := fun all => short (Spanning.mono all fun r hr => by
      obtain ⟨sid, arrived, rfl⟩ := mem_arrivedRows.1 hr
      obtain ⟨x, hx, rfl⟩ := List.mem_map.1 ((same sid).2 arrived)
      exact mem_rowsOf hx)
    simp [resolvedPayload, found, few]
  | absent none nothing =>
    have few : ¬ Decodable k done g := fun all => by
      have rows : arrivedRows k done g = [] := List.eq_nil_iff_forall_not_mem.2 fun r hr => by
        obtain ⟨sid, arrived, -⟩ := mem_arrivedRows.1 hr
        exact nothing sid arrived
      have := Spanning.le_length all
      rw [rows, List.length_nil] at this
      omega
    simp [resolvedPayload, none, few]

theorem range_high_eq_append {b : Block} (cursor : b.nextGroup ≤ b.high) :
    List.range b.high
      = List.range b.nextGroup ++ List.range' b.nextGroup (b.high - b.nextGroup) := by
  have joined := List.range'_append_1 (s := 0) (m := b.nextGroup) (n := b.high - b.nextGroup)
  rw [Nat.zero_add, Nat.add_sub_of_le cursor] at joined
  rw [List.range_eq_range', List.range_eq_range', joined]

section
variable {k : Nat} {done : List AcceptArgs} {b : Block}

theorem Collected.flushedGroups_eq [DecidablePred (Decodable k done)] (h : Collected k done b)
    (inv : BlockInv b) (pos : 1 ≤ k) (cfg : b.cfg.sourceChunks = k) :
    flushedGroups b = (List.range (arrivedHigh done)).filter (Decodable k done ·) := by
  have below : ∀ g ∈ List.range b.nextGroup, decide (Decodable k done g) = true := fun g hg =>
    decide_eq_true (h.closed g (List.mem_range.1 hg))
  have above : ∀ g ∈ List.range' b.nextGroup (b.high - b.nextGroup),
      (resolvedPayload b.gt g).isSome = decide (Decodable k done g) := fun g hg => by
    rw [Bool.eq_iff_iff, decide_eq_true_iff]
    exact h.resolved_iff inv pos cfg (List.mem_range'_1.1 hg).1
  rw [flushedGroups, heldGroups_map_fst, ← h.high, range_high_eq_append inv.cursor_le_high,
    List.filter_append, List.filter_eq_self.2 below, List.filter_congr above]

theorem Collected.lostGroups_eq [DecidablePred (Decodable k done)] (h : Collected k done b)
    (inv : BlockInv b) (pos : 1 ≤ k) (cfg : b.cfg.sourceChunks = k) :
    lostGroups b = (List.range (arrivedHigh done)).filter (¬ Decodable k done ·) := by
  have below : ∀ g ∈ List.range b.nextGroup, ¬ decide (¬ Decodable k done g) = true := fun g hg => by
    simpa using h.closed g (List.mem_range.1 hg)
  have above : ∀ g ∈ List.range' b.nextGroup (b.high - b.nextGroup),
      (resolvedPayload b.gt g).isNone = decide (¬ Decodable k done g) := fun g hg => by
    rw [Bool.eq_iff_iff, decide_eq_true_iff, ← h.resolved_iff inv pos cfg (List.mem_range'_1.1 hg).1]
    simp
  rw [lostGroups, ← h.high, range_high_eq_append inv.cursor_le_high, List.filter_append,
    List.filter_eq_nil_iff.2 below, List.filter_congr above, List.nil_append]

end

/-- `OVERFLOW` is sticky (R27). -/
theorem overflow_clear_before {i : Instr} {s t : State} (ran : exec i s = .next t)
    (clean : t.blk.overflow = false) : s.blk.overflow = false :=
  Bool.eq_false_iff.2 fun set => Bool.eq_false_iff.1 clean ((ends_of_exec ran).sticks.overflow set)

/-- The `ACCEPT`s of a session that ends without overflow have all been taken into account. -/
theorem FreshSession.collects {s t : State} {chunks : List AcceptArgs} {sources : Nat → List Bytes}
    (fresh : FreshSession s)
    (source : ∀ g, IsSource s.blk.cfg.sourceChunks s.blk.cfg.chunkSize (sources g))
    (valid : ∀ a ∈ chunks, a.2.2.2.length = s.blk.cfg.chunkSize
      ∧ (a.1 = false → IsSymbolOf s.blk.cfg.sourceChunks s.blk.cfg.chunkSize (sources a.2.1.toNat)
          a.2.2.1.toNat a.2.2.2))
    (run : runCommands (chunks.map AcceptArgs.command) s = some t) :
    InSession s sources t
      ∧ (t.blk.overflow = false → Collected s.blk.cfg.sourceChunks chunks t.blk) := by
  refine runAccepts_induct (fun done u => InSession s sources u
    ∧ (u.blk.overflow = false → Collected s.blk.cfg.sourceChunks done u.blk))
    ⟨fresh.inSession sources, fun _ => fresh.collected _⟩ ?_ run
  rintro done ⟨e, g, sid, data⟩ mem u v ⟨session, collected⟩ ran
  obtain ⟨whole, symbol⟩ := valid _ mem
  refine ⟨session.accept source symbol ran, fun clean => ?_⟩
  obtain ⟨w, received, op, value, rfl⟩ :=
    exec_accept_received session.inv session.ok session.live (session.cfg ▸ whole) ran
  have before := collected (overflow_clear_before ran clean)
  have counted := received.collected (done := done) (session.cfg ▸ before)
    (session.inv.sourceChunks_pos session.ok) session.inv.cursor_le_high clean
  exact session.cfg ▸ counted

/-- Settles O60: both what is pushed and what is reported depend on the symbols that have come for each
group alone. -/
theorem arrivalOrderDoesNotMatter : Obligations.ArrivalOrderDoesNotMatter := by
  classical
  intro s t u chunks permuted sources fresh source valid perm runT runU cleanT cleanU
  obtain ⟨t', acceptsT, finalT⟩ := runCommands_session runT
  obtain ⟨u', acceptsU, finalU⟩ := runCommands_session runU
  have validU := fun a mem => valid a (perm.mem_iff.2 mem)
  obtain ⟨sessionT, collectedT⟩ := fresh.collects source valid acceptsT
  obtain ⟨sessionU, collectedU⟩ := fresh.collects source validU acceptsU
  have pos := fresh.1.sourceChunks_pos fresh.2.1
  have same : Decodable s.blk.cfg.sourceChunks chunks = Decodable s.blk.cfg.sourceChunks permuted :=
    funext fun g => propext (Decodable.perm perm)
  have seenT := collectedT (overflow_clear_before finalT cleanT)
  have seenU := collectedU (overflow_clear_before finalU cleanU)
  have cfgT := congrArg Cfg.sourceChunks sessionT.cfg
  have cfgU := congrArg Cfg.sourceChunks sessionU.cfg
  have flushed : flushedGroups t'.blk = flushedGroups u'.blk := by
    rw [seenT.flushedGroups_eq sessionT.inv pos cfgT, seenU.flushedGroups_eq sessionU.inv pos cfgU,
      arrivedHigh_perm perm]
    simp only [same]
  have lost : lostGroups t'.blk = lostGroups u'.blk := by
    rw [seenT.lostGroups_eq sessionT.inv pos cfgT, seenU.lostGroups_eq sessionU.inv pos cfgU,
      arrivedHigh_perm perm]
    simp only [same]
  obtain ⟨pushesT, reportT⟩ := sessionT.finalize finalT
  obtain ⟨pushesU, reportU⟩ := sessionU.finalize finalU
  rw [pushesT, pushesU, reportT, reportU, flushed, lost]
  exact ⟨rfl, rfl⟩

end Sys2Proof.Machine
end

/-! ## `NOP` and `RDREG` -/

section
namespace Sys2Proof.Machine

/-! ### The check of the length -/

/-- Without data the length is admitted, and `DLEN` can describe the answer (R94, R264). -/
theorem lengthGuarded_answers (op : Byte) (value : Word64) (s : State) :
    lengthGuarded op (noDataAdmitted []) (respond op value []) s
      = answered (okResponse op value []) s :=
  (if_neg (by decide)).trans (respond_eq_answered op value [] s (by decide))

/-- With data the length is not admitted, which raises `InvalidInput` (R264, R268). -/
theorem lengthGuarded_faults {data : Bytes} (present : data ≠ []) (op : Byte) (body : State → State)
    (s : State) : lengthGuarded op (noDataAdmitted data) body s = faulted .invalidInput op s :=
  (if_pos (noDataAdmitted_eq_false present)).trans (raise_eq_faulted _ op s)

/-! ### `NOP` -/

/-- The length alone decides (R250, R267). -/
theorem exec_nop_eq (data : Bytes) (s : State) :
    exec (.nop data) s
      = .next (lengthGuarded 0x00#8 (noDataAdmitted data) (respond 0x00#8 0#64 []) s) :=
  rfl

/-- Settles O13: the one check of `NOP` is that of its length. -/
theorem nopOnlyAnswers : Obligations.NopOnlyAnswers := by
  refine ⟨fun s => ?_, fun s data present => ?_⟩
  · rw [exec_nop_eq, lengthGuarded_answers]
  · rw [exec_nop_eq, lengthGuarded_faults present]

/-! ### `RDREG` -/

/-- Every number up to 0x0E is that of a register (R30, R31). -/
theorem exists_regRead_eq_some (b : Block) {r : BitVec 8} (mapped : r.toNat ≤ 0x0E) :
    ∃ v, regRead b r = some v := by
  unfold regRead
  interval_cases r.toNat
  all_goals exact ⟨_, rfl⟩

/-- Once the register is known to be there, the length decides (R251, R267). -/
theorem exec_rdreg_mapped {r : BitVec 8} {s : State} {v : Word64} (content : regRead s.blk r = some v)
    (data : Bytes) :
    exec (.rdreg r data) s
      = .next (lengthGuarded 0x40#8 (noDataAdmitted data) (respond 0x40#8 v []) s) := by
  show execRdreg r data s = _
  rw [execRdreg, content]
  rfl

/-- Settles O14: the register is looked up before the length is tested. -/
theorem rdregReturnsRegister : Obligations.RdregReturnsRegister := by
  refine ⟨fun s r mapped => ?_, fun s r data unmapped => exec_rdreg_unmapped unmapped data s,
    fun s r data mapped present => ?_⟩
  · obtain ⟨v, content⟩ := exists_regRead_eq_some s.blk mapped
    exact ⟨v, content, by rw [exec_rdreg_mapped content, lengthGuarded_answers]⟩
  · obtain ⟨v, content⟩ := exists_regRead_eq_some s.blk mapped
    rw [exec_rdreg_mapped content, lengthGuarded_faults present]

end Sys2Proof.Machine
end

/-! ## The checks of a command -/

section
namespace Sys2Proof.Machine

/-! ### The word of no row -/

/-- The ten rows of the opcode map, each written out (R97): a word of none of them selects none. -/
theorem selects_no_row {w : Word64} (nop : w ≠ 0x0000000000000000#64)
    (enc : w ≠ 0x1000000000000000#64) (dec : w ≠ 0x1100000000000000#64)
    (rd : w ≠ 0x2000000000000000#64) (wr : w ≠ 0x2100000000000000#64)
    (goode : w ≠ 0x2200000000000000#64) (goodd : w ≠ 0x2300000000000000#64)
    (accept : w &&& 0xFFFEFFFF00000000#64 ≠ 0x3000000000000000#64)
    (finalize : w ≠ 0x3100000000000000#64)
    (rdreg : w &&& 0xFFFFFFFFFFFFFF00#64 ≠ 0x4000000000000000#64) (row : Mnemonic) :
    selects w row = false := by
  have unmasked : w &&& 0xFFFFFFFFFFFFFFFF#64 = w := BitVec.and_allOnes
  refine beq_eq_false_iff_ne.2 ?_
  cases row with
  | nop => exact unmasked.symm ▸ nop
  | enc => exact unmasked.symm ▸ enc
  | dec => exact unmasked.symm ▸ dec
  | rd => exact unmasked.symm ▸ rd
  | wr => exact unmasked.symm ▸ wr
  | goode => exact unmasked.symm ▸ goode
  | goodd => exact unmasked.symm ▸ goodd
  | accept => exact accept
  | finalize => exact unmasked.symm ▸ finalize
  | rdreg => exact rdreg

/-- A transfer whose word selects no row raises `IllegalCommand`; its data have no effect (R98, R262). -/
theorem runTransfer_of_no_row {w : Word64} {data : Bytes} (fits : data.length ≤ 65535)
    (noRow : ∀ row, selects w row = false) (s : State) :
    runTransfer ⟨w, data⟩ s = .next (raise .illegalCommand (opField w) s) := by
  rw [runTransfer, decode_of_no_row ((dataFits_eq_true_iff data).2 fits) noRow]
  rfl

/-- Settles O9: the decoder finds no row for the word, and no register has a number above 0x0E. -/
theorem illegalCommandIsRaised : Obligations.IllegalCommandIsRaised := by
  refine ⟨fun s w data rest inbox fits nop enc dec rd wr goode goodd accept finalize rdreg => ?_,
    fun s r data unmapped => exec_rdreg_unmapped unmapped data s⟩
  have noRow := selects_no_row nop enc dec rd wr goode goodd accept finalize rdreg
  rw [step_of_command inbox, runTransfer_of_no_row fits noRow, raise_eq_faulted, takeEvent_eq inbox]
  rfl

/-! ### What a command does after its checks -/

/-- The test of the data length that a command makes (R70, R264). -/
def lengthAdmitted (cfg : Cfg) : Instr → Bool
  | .enc d => payloadAdmitted cfg d
  | .dec d | .wr d => codewordAdmitted cfg d
  | .accept _ _ _ d => chunkAdmitted cfg d
  | .nop d | .rd d | .goode d | .goodd d | .finalize d | .rdreg _ d => noDataAdmitted d

theorem lengthAdmitted_eq_true (cfg : Cfg) (i : Instr) :
    lengthAdmitted cfg i = true ↔ admitsLength cfg i := by
  cases i with
  | enc d => exact payloadAdmitted_eq_true cfg d
  | dec d => exact codewordAdmitted_eq_true cfg d
  | wr d => exact codewordAdmitted_eq_true cfg d
  | accept e g sid d => exact chunkAdmitted_eq_true cfg d
  | _ => exact decide_eq_true_iff

/-- Where a command leads from `s` once it has passed its checks (R267). -/
def effectOf (s : State) : Instr → State
  | .nop _ => respond Mnemonic.nop.opcode 0#64 [] s
  | .enc d =>
    respond Mnemonic.enc.opcode (encValue (codecEncode s.blk.cfg d).length) (codecEncode s.blk.cfg d) s
  | .dec d => respondDecoded Mnemonic.dec.opcode (codecDecode s.blk.cfg d) s
  | .rd _ => readPath Mnemonic.rd.opcode s
  | .wr d => writePath Mnemonic.wr.opcode d s
  | .goode _ =>
    respond Mnemonic.goode.opcode (bitValue (s.blk.encGood && nextSrcOk s.env)) [] (srcOk s)
  | .goodd _ =>
    respond Mnemonic.goodd.opcode (bitValue (s.blk.decGood && nextSinkOk s.env)) [] (sinkOk s)
  | .accept e g sid d => acceptChunk Mnemonic.accept.opcode e g.toNat sid d s
  | .finalize _ => finalizeSession Mnemonic.finalize.opcode s
  | .rdreg r _ => respond Mnemonic.rdreg.opcode ((regRead s.blk r).getD 0#64) [] s

/-- Every command but `NOP` and `RDREG` tests the configuration, then the length (R263, R267). -/
theorem exec_eq_guarded {i : Instr} (tests : runsUnconfigured i = false) (s : State) :
    exec i s = .next (guarded i.mnemonic.opcode (lengthAdmitted s.blk.cfg i)
      (fun _ => effectOf s i) s) := by
  cases i with
  | nop | rdreg => cases tests
  | _ => rfl

/-- `NOP` and `RDREG` of a register that there is test the length alone (R250, R251, R267). -/
theorem exec_eq_lengthGuarded {i : Instr} (runs : runsUnconfigured i = true)
    (mapped : namesMissingRegister i = false) (s : State) :
    exec i s = .next (lengthGuarded i.mnemonic.opcode (lengthAdmitted s.blk.cfg i)
      (fun _ => effectOf s i) s) := by
  cases i with
  | nop => rfl
  | rdreg r data =>
    obtain ⟨v, content⟩ := exists_regRead_eq_some s.blk (Nat.le_of_not_lt (of_decide_eq_false mapped))
    rw [exec_rdreg_mapped content, effectOf, content]
    rfl
  | _ => cases runs

/-! ### The first check that fails -/

/-- Checks 2 to 4 of R267, in their order. -/
theorem exec_of_firstFailure {i : Instr} {s : State} {x : Status}
    (failure : FirstFailure i s.blk (some x)) :
    exec i s = .next (faulted x i.mnemonic.opcode s) := by
  cases x with
  | ok => exact failure.elim
  | illegalCommand =>
    cases i with
    | rdreg r data => exact exec_rdreg_unmapped (of_decide_eq_true failure) data s
    | _ => cases failure
  | cfgInvalid =>
    obtain ⟨-, tests, bad⟩ := failure
    rw [exec_eq_guarded tests, guarded_faults_unconfigured bad]
  | invalidInput =>
    obtain ⟨mapped, configured, misfit⟩ := failure
    have refused : lengthAdmitted s.blk.cfg i = false :=
      Bool.eq_false_iff.2 (mt (lengthAdmitted_eq_true s.blk.cfg i).1 misfit)
    cases runs : runsUnconfigured i with
    | true => rw [exec_eq_lengthGuarded runs mapped, lengthGuarded, if_pos refused, raise_eq_faulted]
    | false =>
      have ok : s.blk.cfgOk = true := configured.resolve_left (by simp [runs])
      rw [exec_eq_guarded runs, guarded_faults_badLength ok refused]

/-- The response and the fault record name a command by bits [63:56] of its word (R94, R268). -/
theorem opField_word (i : Instr) : opField i.word = i.mnemonic.opcode :=
  opField_of_selects (selects_word i)

/-- Settles O10: the guards of `exec` are the checks of R267, and they raise the exception entry alone. -/
theorem firstFailingCheckRaises : Obligations.FirstFailingCheckRaises := by
  intro i s x failure
  rw [exec_of_firstFailure failure, ← opField_word i]
  rfl

/-! ### No check fails -/

/-- A command that passes its checks comes to its effect (R267). -/
theorem exec_of_noFailure {i : Instr} {s : State} (passed : FirstFailure i s.blk none) :
    exec i s = .next (effectOf s i) := by
  obtain ⟨mapped, configured, fits⟩ := passed
  have admitted := (lengthAdmitted_eq_true s.blk.cfg i).2 fits
  cases runs : runsUnconfigured i with
  | true => rw [exec_eq_lengthGuarded runs mapped, lengthGuarded, if_neg (by simp [admitted])]
  | false =>
    have ok : s.blk.cfgOk = true := configured.resolve_left (by simp [runs])
    rw [exec_eq_guarded runs, guarded_pass ok admitted]

/-- From `s` to `u` the fault record stands as it stood, and no response has been given. -/
structure RaisedNothing (s u : State) : Prop where
  fault : u.blk.fault = s.blk.fault
  lastErr : u.blk.lastErr = s.blk.lastErr
  cntFaults : u.blk.cntFaults = s.blk.cntFaults
  outbox : u.env.outbox = s.env.outbox

theorem RaisedNothing.refl (s : State) : RaisedNothing s s := ⟨rfl, rfl, rfl, rfl⟩

theorem RaisedNothing.flushAll {s u : State} (h : RaisedNothing s u) :
    RaisedNothing s (flushAll u).1 :=
  flushLoop_induct (fun t _ => RaisedNothing s t) (fun _ _ _ _ _ ht => { ht with }) _ _ _ h

theorem finalWalk_raisedNothing (s : State) : RaisedNothing s (finalWalk s).st :=
  finalWalk_induct (fun w _ => RaisedNothing s w.st) s (.refl s) fun w g _ _ h => by
    obtain ⟨payload, -, e⟩ | e := finalVisit_cases w g
    · exact e ▸ { h with }
    · exact e ▸ { h with }

/-- A command from `s` has come to its end at `t` with a response of status OK and without an exception. -/
def AnswersOk (op : Byte) (s t : State) : Prop :=
  ∃ value rdata u, RaisedNothing s u ∧ t = respond op value rdata u

theorem RaisedNothing.respond {op : Byte} {value : Word64} {rdata : Bytes} {s u : State}
    (h : RaisedNothing s u) : AnswersOk op s (respond op value rdata u) := ⟨value, rdata, u, h, rfl⟩

theorem respondDecoded_answersOk (op : Byte) (result : Option Bytes) (s : State) :
    AnswersOk op s (respondDecoded op result s) := by
  cases result with
  | some payload => exact (RaisedNothing.refl s).respond
  | none => exact (RaisedNothing.refl s).respond

theorem readPath_answersOk (op : Byte) (s : State) : AnswersOk op s (readPath op s) := by
  have read : RaisedNothing s (srcRead s.blk.cfg.payloadSize s) := ⟨rfl, rfl, rfl, rfl⟩
  unfold readPath answerRead
  simp only
  split
  · exact RaisedNothing.respond { read with }
  · split
    · exact read.respond
    · exact read.respond

theorem writePath_answersOk (op : Byte) (data : Bytes) (s : State) :
    AnswersOk op s (writePath op data s) := by
  unfold writePath
  split
  · exact RaisedNothing.respond ⟨rfl, rfl, rfl, rfl⟩
  · split
    · exact RaisedNothing.respond ⟨rfl, rfl, rfl, rfl⟩
    · exact RaisedNothing.respond ⟨rfl, rfl, rfl, rfl⟩

theorem acceptSymbol_answersOk {s u : State} (h : RaisedNothing s u) (op : Byte) (g : Nat) (sid : Id16)
    (chunk : Bytes) (held : List Symbol) : AnswersOk op s (acceptSymbol op g sid chunk held u) := by
  unfold acceptSymbol
  split
  · exact h.respond
  · split
    · exact RaisedNothing.respond { h with }
    · obtain ⟨attempted, now, e⟩ := acceptStored_eq op g (held ++ [(sid, chunk)]) u
      have put : RaisedNothing s (putEntry g (entryOf u.blk.cfg (held ++ [(sid, chunk)])) u) := { h with }
      exact e ▸ put.flushAll.respond

theorem acceptRouted_answersOk {s u : State} (h : RaisedNothing s u) (op : Byte) (g : Nat) (sid : Id16)
    (chunk : Bytes) : AnswersOk op s (acceptRouted op g sid chunk u) := by
  unfold acceptRouted
  split
  · exact h.respond
  · exact acceptSymbol_answersOk h op g sid chunk _
  · split
    · exact RaisedNothing.respond { h with }
    · have opened : RaisedNothing s (putEntry g (.collecting []) u) := { h with }
      exact acceptSymbol_answersOk opened op g sid chunk []

theorem acceptChunk_answersOk (op : Byte) (e : Bool) (g : Nat) (sid : Id16) (chunk : Bytes) (s : State) :
    AnswersOk op s (acceptChunk op e g sid chunk s) := by
  unfold acceptChunk
  split
  · exact (RaisedNothing.refl s).respond
  · split
    · exact (RaisedNothing.refl s).respond
    · split
      · exact (RaisedNothing.refl s).respond
      · have raised : RaisedNothing s (raiseHigh g s) := ⟨rfl, rfl, rfl, rfl⟩
        exact acceptRouted_answersOk raised op g sid chunk

theorem finalizeSession_answersOk (op : Byte) (s : State) :
    AnswersOk op s (finalizeSession op s) := by
  unfold finalizeSession
  split
  · exact RaisedNothing.respond { finalWalk_raisedNothing s with }
  · exact (RaisedNothing.refl s).respond

/-- No effect raises anything (R265). -/
theorem effectOf_answersOk (s : State) (i : Instr) : AnswersOk i.mnemonic.opcode s (effectOf s i) := by
  cases i with
  | nop | enc | rdreg => exact (RaisedNothing.refl s).respond
  | dec data => exact respondDecoded_answersOk _ _ s
  | rd data => exact readPath_answersOk _ s
  | wr data => exact writePath_answersOk _ data s
  | goode | goodd => exact RaisedNothing.respond ⟨rfl, rfl, rfl, rfl⟩
  | accept e g sid data => exact acceptChunk_answersOk _ e g.toNat sid data s
  | finalize data => exact finalizeSession_answersOk _ s

/-- The field `OP`, whatever length the response has (R94). -/
theorem rsp0Word_op (op : Byte) (x : Status) (n : Nat) : (rsp0Word op x n).extractLsb' 56 8 = op := by
  simp (disch := decide) only [rsp0Word, BitVec.extractLsb'_append_eq_of_le, Nat.reduceSub,
    BitVec.extractLsb'_eq_self]

/-- The field `STATUS`, whatever length the response has (R94). -/
theorem rsp0Word_status (op : Byte) (x : Status) (n : Nat) :
    (rsp0Word op x n).extractLsb' 48 8 = statusCode x := by
  simp (disch := decide) only [rsp0Word, extractLsb'_append_lowest, BitVec.extractLsb'_append_eq_of_le,
    Nat.reduceSub]

/-- Settles O11: with no check failing the command comes to its effect, which ends in a response with
status OK. -/
theorem passedChecksRaiseNothing : Obligations.PassedChecksRaiseNothing := by
  intro i s passed
  obtain ⟨value, rdata, u, raised, ended⟩ := effectOf_answersOk s i
  refine ⟨respond i.mnemonic.opcode value rdata u, _, (exec_of_noFailure passed).trans (by rw [ended]),
    congrArg (· ++ _) raised.outbox, rsp0Word_status _ .ok _, ?_, raised.fault, raised.lastErr,
    raised.cntFaults⟩
  exact (rsp0Word_op _ _ _).trans (opField_word i).symm

end Sys2Proof.Machine
end
